-- ==== Sys2Proof/Word.lean ====
section
/-!
DEFINITION. Word types of the Twija Gheind (R3, R58) and sparse maps of plain data.
-/

namespace Sys2Proof

/-- A byte of memory (R4). -/
abbrev Byte := BitVec 8
/-- A 32-bit word: an instruction, a vector lane, a predicate. -/
abbrev W32 := BitVec 32
/-- A 64-bit word: a scalar register (R83). -/
abbrev W64 := BitVec 64
/-- A PC value: SLOT in [13:10], WORD in [9:0] (R91). -/
abbrev PCVal := BitVec 14

/-- A sparse map by number: the first entry with a key counts. -/
abbrev Map (α : Type) := List (Nat × α)

end Sys2Proof
end

