-- ==== Sys2Proof/Config.lean ====
section
/-!
DEFINITION. What the manual leaves open and the part fixes: free values, none of which has a body, so that
no proof can lean on a value of them, and the fixed figures of R19, R21 and R350 that several files use.
-/

namespace Sys2Proof.Config

/-- Numbers of the Quinrak controller's random number generator (R132, R182), by draw (log 12). -/
opaque random : Nat → W64
/-- How far tile t's timestamp unit runs behind or before the hub's count: 0 to 4 ns (R299; log 12). -/
opaque tileSkew : Nat → Fin 5
/-- The nanoseconds from its start within which a copy is promised, by draw (R293; log 13). -/
opaque promiseDelay : Nat → W64
/-- The action word of a stock culture for (slot, state, event) where the manual prints none (R267; log 14). -/
opaque stockAction : Nat → Nat → Nat → W32
/-- What rounding an unassigned value of ROUND.RM, put there by a store, selects: mode 1 + the result (R91; log 19). -/
opaque unassignedRound : BitVec 3 → Fin 5
/-- The signature r and s of a usage report, by report (R381; log 16). -/
opaque signature : Nat → BitVec 768
/-- The SHA-384 measurement of the firmware image of a version (R382; log 16). -/
opaque measurement : Nat → BitVec 384
/-- Whether the signature of the firmware image of a version verifies (R382; log 16). -/
opaque firmwareVerifies : Nat → Bool
/-- Byte i of the identity certificate chain, and its length; the manual gives neither (R379, R380; log 55). -/
opaque chainByte : Nat → Byte
opaque chainLength : Fin 4097
/-- The name of a stock culture as its image holds it (R265, R267; log 14). -/
opaque stockName : Nat → W64
/-- A value the manual leaves open for an instruction's result, by draw (log 20). -/
opaque freeValue : Nat → W64

/-- The bounded-discretion limit B (R21, R41). -/
abbrev B : Nat := 8
/-- Full scale of the vat, 24 kJ, in the units of Q, 24 kJ / 2^24 (R349, R350). -/
abbrev vatFull : Nat := 2 ^ 24

end Sys2Proof.Config
end

