-- ==== Sys2Proof/Syntax.lean ====
section
/-!
DEFINITION. The instructions and the other steps of the Twija Gheind as syntax: one constructor per row of
spec/opcode_table.json. The first 200 are instruction words of R58 to R74, their fields in the order of the word;
the others are the part's steps that no word names (events), with what the event's outside agent says; those that the
part takes by itself come first.
-/

namespace Sys2Proof

/-- The configuration record of a virtual function (R372). -/
structure VfRecord where
  root    : W64
  part    : Nat
  wwq     : Nat
  spr     : Bool
  hentry  : W64
  fring   : W64
  scva    : W64
  hwring  : W64
  weights : List Nat
  slices  : List Nat
  rsvd    : List Byte               -- its reserved bytes, 0x0D to 0x0F and 0x58 to 0x7F
  deriving DecidableEq, Repr

/-- The configuration record of a partition (R373). -/
structure PartRecord where
  quads    : List Nat
  save     : Nat
  saveSize : Nat
  evring   : Nat
  ceil     : Nat
  taskArea : Nat
  taskSize : Nat
  deriving DecidableEq, Repr

/-- Where a soft error strikes (R204). -/
inductive SoftPlace where
  /-- a byte of HBM, local memory, service core memory or host memory cached on the device, by physical address -/
  | mem (pa : Nat)
  /-- a word of instruction memory -/
  | code (core slot word : Nat)
  /-- word `word` (8 bytes) of a line that a core's L1 holds -/
  | l1 (core line word : Nat)
  /-- word `word` (8 bytes) of a line that a tile's L2 slice holds -/
  | l2 (tile line word : Nat)
  /-- an entry of a core TLB, by its place -/
  | coreTlb (core n : Nat)
  /-- an entry of a shared TLB, by its place -/
  | sharedTlb (tile n : Nat)
  /-- an 8-byte word of accumulator memory -/
  | acc (quad elem : Nat)
  deriving DecidableEq, Repr

/-- An SRAM of which a bank is tested (R205): a quad's local memory of 32 banks, or another memory, which counts as bank 0
(log 37). -/
inductive TestUnit where
  | localMem (quad : Nat)
  | acc (quad : Nat)
  | code (core : Nat)
  | l1 (core : Nat)
  | l2 (tile : Nat)
  | coreTlb (core : Nat)
  | sharedTlb (tile : Nat)
  | service (tile : Nat)
  deriving DecidableEq, Repr

/-- What a debugger writes to a STOPPED context (R339). -/
inductive DebugWrite where
  | bytes (off : Nat) (data : List Byte)
  | pc (pc : PCVal)
  | wsp (wsp : W32)
  | flags (flags : W64)
  deriving DecidableEq, Repr

/-- The rows of the opcode table. -/
inductive Instr where
  /-- IMM (R68) -/
  | imm (p : BitVec 26)
  /-- ONNR (R69) -/
  | onnr (o : BitVec 26)
  /-- HINT (R70) -/
  | hint (u : BitVec 3) (l : BitVec 2) (k : BitVec 1)
  /-- MOD (R71) -/
  | mod (m : BitVec 3) (s : BitVec 1) (c : BitVec 2)
  /-- NOP (R60) -/
  | nop
  /-- ADD (R95) -/
  | add (g : BitVec 4) (d : BitVec 6) (a : BitVec 6) (b : BitVec 6)
  /-- SUB (R95) -/
  | sub (g : BitVec 4) (d : BitVec 6) (a : BitVec 6) (b : BitVec 6)
  /-- MUL (R95) -/
  | mul (g : BitVec 4) (d : BitVec 6) (a : BitVec 6) (b : BitVec 6)
  /-- MULH (R95) -/
  | mulh (g : BitVec 4) (d : BitVec 6) (a : BitVec 6) (b : BitVec 6)
  /-- MULHU (R95) -/
  | mulhu (g : BitVec 4) (d : BitVec 6) (a : BitVec 6) (b : BitVec 6)
  /-- DIV (R96) -/
  | div (g : BitVec 4) (d : BitVec 6) (a : BitVec 6) (b : BitVec 6)
  /-- DIVU (R96) -/
  | divu (g : BitVec 4) (d : BitVec 6) (a : BitVec 6) (b : BitVec 6)
  /-- REM (R96) -/
  | rem (g : BitVec 4) (d : BitVec 6) (a : BitVec 6) (b : BitVec 6)
  /-- REMU (R96) -/
  | remu (g : BitVec 4) (d : BitVec 6) (a : BitVec 6) (b : BitVec 6)
  /-- AND (R95) -/
  | and (g : BitVec 4) (d : BitVec 6) (a : BitVec 6) (b : BitVec 6)
  /-- OR (R95) -/
  | or (g : BitVec 4) (d : BitVec 6) (a : BitVec 6) (b : BitVec 6)
  /-- XOR (R95) -/
  | xor (g : BitVec 4) (d : BitVec 6) (a : BitVec 6) (b : BitVec 6)
  /-- SHL (R95) -/
  | shl (g : BitVec 4) (d : BitVec 6) (a : BitVec 6) (b : BitVec 6)
  /-- SHR (R95) -/
  | shr (g : BitVec 4) (d : BitVec 6) (a : BitVec 6) (b : BitVec 6)
  /-- SAR (R95) -/
  | sar (g : BitVec 4) (d : BitVec 6) (a : BitVec 6) (b : BitVec 6)
  /-- ROT (R95) -/
  | rot (g : BitVec 4) (d : BitVec 6) (a : BitVec 6) (b : BitVec 6)
  /-- MIN (R97) -/
  | min (g : BitVec 4) (d : BitVec 6) (a : BitVec 6) (b : BitVec 6)
  /-- MAX (R97) -/
  | max (g : BitVec 4) (d : BitVec 6) (a : BitVec 6) (b : BitVec 6)
  /-- MINU (R97) -/
  | minu (g : BitVec 4) (d : BitVec 6) (a : BitVec 6) (b : BitVec 6)
  /-- MAXU (R97) -/
  | maxu (g : BitVec 4) (d : BitVec 6) (a : BitVec 6) (b : BitVec 6)
  /-- CLZ (R97) -/
  | clz (g : BitVec 4) (d : BitVec 6) (a : BitVec 6)
  /-- CTZ (R97) -/
  | ctz (g : BitVec 4) (d : BitVec 6) (a : BitVec 6)
  /-- POPC (R97) -/
  | popc (g : BitVec 4) (d : BitVec 6) (a : BitVec 6)
  /-- MOV (R97) -/
  | mov (g : BitVec 4) (d : BitVec 6) (a : BitVec 6)
  /-- EXT (R98) -/
  | ext (g : BitVec 4) (d : BitVec 6) (a : BitVec 6) (b : BitVec 6)
  /-- EXT_S (R98) -/
  | extS (g : BitVec 4) (d : BitVec 6) (a : BitVec 6) (b : BitVec 6)
  /-- INS (R98) -/
  | ins (g : BitVec 4) (d : BitVec 6) (a : BitVec 6) (b : BitVec 6)
  /-- LEA (R99) -/
  | lea (g : BitVec 4) (d : BitVec 6) (a : BitVec 6) (b : BitVec 6) (s : BitVec 2)
  /-- SEL (R100) -/
  | sel (g : BitVec 4) (d : BitVec 6) (a : BitVec 6) (b : BitVec 6) (n : BitVec 1) (q : BitVec 3)
  /-- ADDI (R101) -/
  | addi (g : BitVec 4) (d : BitVec 6) (a : BitVec 6) (i : BitVec 10)
  /-- MOVI (R101) -/
  | movi (g : BitVec 4) (d : BitVec 6) (i : BitVec 10)
  /-- ANDI (R101) -/
  | andi (g : BitVec 4) (d : BitVec 6) (a : BitVec 6) (i : BitVec 10)
  /-- ORI (R101) -/
  | ori (g : BitVec 4) (d : BitVec 6) (a : BitVec 6) (i : BitVec 10)
  /-- XORI (R101) -/
  | xori (g : BitVec 4) (d : BitVec 6) (a : BitVec 6) (i : BitVec 10)
  /-- SHLI (R102) -/
  | shli (g : BitVec 4) (d : BitVec 6) (a : BitVec 6) (n : BitVec 6)
  /-- SHRI (R102) -/
  | shri (g : BitVec 4) (d : BitVec 6) (a : BitVec 6) (n : BitVec 6)
  /-- SARI (R102) -/
  | sari (g : BitVec 4) (d : BitVec 6) (a : BitVec 6) (n : BitVec 6)
  /-- CMP (R103) -/
  | cmp (g : BitVec 4) (p : BitVec 3) (e : BitVec 3) (a : BitVec 6) (b : BitVec 6) (c : BitVec 4)
  /-- CMPI (R104) -/
  | cmpi (g : BitVec 4) (p : BitVec 3) (e : BitVec 3) (a : BitVec 6) (i : BitVec 6) (c : BitVec 4)
  /-- PAND (R105) -/
  | pand (g : BitVec 4) (d : BitVec 3) (a : BitVec 3) (b : BitVec 3)
  /-- POR (R105) -/
  | por (g : BitVec 4) (d : BitVec 3) (a : BitVec 3) (b : BitVec 3)
  /-- PXOR (R105) -/
  | pxor (g : BitVec 4) (d : BitVec 3) (a : BitVec 3) (b : BitVec 3)
  /-- PNOT (R105) -/
  | pnot (g : BitVec 4) (d : BitVec 3) (a : BitVec 3)
  /-- BR (R108) -/
  | br (g : BitVec 4) (o : BitVec 22)
  /-- JMP (R108) -/
  | jmp (o : BitVec 22)
  /-- CALL (R109) -/
  | call (g : BitVec 4) (o : BitVec 22)
  /-- LOOP (R110) -/
  | loop (g : BitVec 4) (d : BitVec 6) (i : BitVec 10)
  /-- JMPR (R111) -/
  | jmpr (g : BitVec 4) (a : BitVec 6)
  /-- CALLR (R111) -/
  | callr (g : BitVec 4) (a : BitVec 6)
  /-- RET (R111) -/
  | ret (g : BitVec 4) (a : BitVec 6)
  /-- JSEG (R112) -/
  | jseg (g : BitVec 4) (a : BitVec 6)
  /-- YIELD (R113) -/
  | yield (g : BitVec 4)
  /-- PARK_GE (R114) -/
  | parkGe (g : BitVec 4) (a : BitVec 6) (b : BitVec 6)
  /-- PARK_NB_S (R115) -/
  | parkNbS (g : BitVec 4) (n : BitVec 6)
  /-- PARK_NB_V (R115) -/
  | parkNbV (g : BitVec 4) (n : BitVec 5)
  /-- PARK_WATCH (R116) -/
  | parkWatch (g : BitVec 4) (a : BitVec 6)
  /-- EXIT (R117) -/
  | exit (g : BitVec 4)
  /-- VADD (R144) -/
  | vadd (g : BitVec 4) (d : BitVec 5) (a : BitVec 5) (b : BitVec 5)
  /-- VSUB (R144) -/
  | vsub (g : BitVec 4) (d : BitVec 5) (a : BitVec 5) (b : BitVec 5)
  /-- VMUL (R144) -/
  | vmul (g : BitVec 4) (d : BitVec 5) (a : BitVec 5) (b : BitVec 5)
  /-- VMAD (R144) -/
  | vmad (g : BitVec 4) (d : BitVec 5) (a : BitVec 5) (b : BitVec 5)
  /-- VAND (R144) -/
  | vand (g : BitVec 4) (d : BitVec 5) (a : BitVec 5) (b : BitVec 5)
  /-- VOR (R144) -/
  | vor (g : BitVec 4) (d : BitVec 5) (a : BitVec 5) (b : BitVec 5)
  /-- VXOR (R144) -/
  | vxor (g : BitVec 4) (d : BitVec 5) (a : BitVec 5) (b : BitVec 5)
  /-- VSHL (R144) -/
  | vshl (g : BitVec 4) (d : BitVec 5) (a : BitVec 5) (b : BitVec 5)
  /-- VSHR (R144) -/
  | vshr (g : BitVec 4) (d : BitVec 5) (a : BitVec 5) (b : BitVec 5)
  /-- VSAR (R144) -/
  | vsar (g : BitVec 4) (d : BitVec 5) (a : BitVec 5) (b : BitVec 5)
  /-- VMIN (R144) -/
  | vmin (g : BitVec 4) (d : BitVec 5) (a : BitVec 5) (b : BitVec 5) (t : BitVec 1)
  /-- VMAX (R144) -/
  | vmax (g : BitVec 4) (d : BitVec 5) (a : BitVec 5) (b : BitVec 5) (t : BitVec 1)
  /-- VABS (R144) -/
  | vabs (g : BitVec 4) (d : BitVec 5) (a : BitVec 5)
  /-- VSEL (R145) -/
  | vsel (g : BitVec 4) (d : BitVec 5) (a : BitVec 5) (b : BitVec 5)
  /-- VSHUF (R145) -/
  | vshuf (g : BitVec 4) (d : BitVec 5) (a : BitVec 5) (b : BitVec 5)
  /-- VROT (R144) -/
  | vrot (g : BitVec 4) (d : BitVec 5) (a : BitVec 5) (b : BitVec 5)
  /-- VCMP (R146) -/
  | vcmp (g : BitVec 4) (p : BitVec 3) (a : BitVec 5) (b : BitVec 5) (c : BitVec 4)
  /-- VBCAST (R147) -/
  | vbcast (g : BitVec 4) (s : BitVec 6) (v : BitVec 5)
  /-- VLANE (R147) -/
  | vlane (g : BitVec 4) (v : BitVec 5)
  /-- VRED_ADD (R148) -/
  | vredAdd (g : BitVec 4) (s : BitVec 6) (v : BitVec 5)
  /-- VRED_AND (R148) -/
  | vredAnd (g : BitVec 4) (s : BitVec 6) (v : BitVec 5)
  /-- VRED_OR (R148) -/
  | vredOr (g : BitVec 4) (s : BitVec 6) (v : BitVec 5)
  /-- VRED_XOR (R148) -/
  | vredXor (g : BitVec 4) (s : BitVec 6) (v : BitVec 5)
  /-- VRED_MIN (R148) -/
  | vredMin (g : BitVec 4) (s : BitVec 6) (v : BitVec 5) (t : BitVec 1)
  /-- VRED_MAX (R148) -/
  | vredMax (g : BitVec 4) (s : BitVec 6) (v : BitVec 5) (t : BitVec 1)
  /-- VFRED_ADD (R149) -/
  | vfredAdd (g : BitVec 4) (s : BitVec 6) (v : BitVec 5)
  /-- VFRED_MIN (R149) -/
  | vfredMin (g : BitVec 4) (s : BitVec 6) (v : BitVec 5)
  /-- VFRED_MAX (R149) -/
  | vfredMax (g : BitVec 4) (s : BitVec 6) (v : BitVec 5)
  /-- VFADD (R150) -/
  | vfadd (g : BitVec 4) (d : BitVec 5) (a : BitVec 5) (b : BitVec 5)
  /-- VFSUB (R150) -/
  | vfsub (g : BitVec 4) (d : BitVec 5) (a : BitVec 5) (b : BitVec 5)
  /-- VFMUL (R150) -/
  | vfmul (g : BitVec 4) (d : BitVec 5) (a : BitVec 5) (b : BitVec 5)
  /-- VFMA (R150) -/
  | vfma (g : BitVec 4) (d : BitVec 5) (a : BitVec 5) (b : BitVec 5)
  /-- VFMS (R150) -/
  | vfms (g : BitVec 4) (d : BitVec 5) (a : BitVec 5) (b : BitVec 5)
  /-- VFNMA (R150) -/
  | vfnma (g : BitVec 4) (d : BitVec 5) (a : BitVec 5) (b : BitVec 5)
  /-- VFMIN (R150) -/
  | vfmin (g : BitVec 4) (d : BitVec 5) (a : BitVec 5) (b : BitVec 5)
  /-- VFMAX (R150) -/
  | vfmax (g : BitVec 4) (d : BitVec 5) (a : BitVec 5) (b : BitVec 5)
  /-- VFABS (R151) -/
  | vfabs (g : BitVec 4) (d : BitVec 5) (a : BitVec 5)
  /-- VFNEG (R151) -/
  | vfneg (g : BitVec 4) (d : BitVec 5) (a : BitVec 5)
  /-- VFRCP (R151) -/
  | vfrcp (g : BitVec 4) (d : BitVec 5) (a : BitVec 5)
  /-- VFRSQ (R151) -/
  | vfrsq (g : BitVec 4) (d : BitVec 5) (a : BitVec 5)
  /-- VFSQRT (R151) -/
  | vfsqrt (g : BitVec 4) (d : BitVec 5) (a : BitVec 5)
  /-- VFEXP2 (R151) -/
  | vfexp2 (g : BitVec 4) (d : BitVec 5) (a : BitVec 5)
  /-- VFLOG2 (R151) -/
  | vflog2 (g : BitVec 4) (d : BitVec 5) (a : BitVec 5)
  /-- VFCLASS (R152) -/
  | vfclass (g : BitVec 4) (d : BitVec 5) (a : BitVec 5)
  /-- VFCMP (R153) -/
  | vfcmp (g : BitVec 4) (p : BitVec 3) (a : BitVec 5) (b : BitVec 5) (c : BitVec 4)
  /-- VCVT_F2X (R154) -/
  | vcvtF2x (g : BitVec 4) (d : BitVec 5) (a : BitVec 5) (f : BitVec 6)
  /-- VCVT_X2F (R154) -/
  | vcvtX2f (g : BitVec 4) (d : BitVec 5) (a : BitVec 5) (f : BitVec 6)
  /-- VCVT_F2I (R154) -/
  | vcvtF2i (g : BitVec 4) (d : BitVec 5) (a : BitVec 5)
  /-- VCVT_F2U (R154) -/
  | vcvtF2u (g : BitVec 4) (d : BitVec 5) (a : BitVec 5)
  /-- VCVT_I2F (R154) -/
  | vcvtI2f (g : BitVec 4) (d : BitVec 5) (a : BitVec 5)
  /-- VCVT_U2F (R154) -/
  | vcvtU2f (g : BitVec 4) (d : BitVec 5) (a : BitVec 5)
  /-- VPACK (R155) -/
  | vpack (g : BitVec 4) (d : BitVec 5) (a : BitVec 5) (f : BitVec 6) (p : BitVec 2)
  /-- VUNPK (R155) -/
  | vunpk (g : BitVec 4) (d : BitVec 5) (a : BitVec 5) (f : BitVec 6) (p : BitVec 2)
  /-- VFRND (R156) -/
  | vfrnd (g : BitVec 4) (d : BitVec 5) (a : BitVec 5)
  /-- FADD (R158) -/
  | fadd (g : BitVec 4) (d : BitVec 6) (a : BitVec 6) (b : BitVec 6)
  /-- FSUB (R158) -/
  | fsub (g : BitVec 4) (d : BitVec 6) (a : BitVec 6) (b : BitVec 6)
  /-- FMUL (R158) -/
  | fmul (g : BitVec 4) (d : BitVec 6) (a : BitVec 6) (b : BitVec 6)
  /-- FFMA (R158) -/
  | ffma (g : BitVec 4) (d : BitVec 6) (a : BitVec 6) (b : BitVec 6)
  /-- FMIN (R158) -/
  | fmin (g : BitVec 4) (d : BitVec 6) (a : BitVec 6) (b : BitVec 6)
  /-- FMAX (R158) -/
  | fmax (g : BitVec 4) (d : BitVec 6) (a : BitVec 6) (b : BitVec 6)
  /-- FCVT_F2X (R159) -/
  | fcvtF2x (g : BitVec 4) (d : BitVec 6) (a : BitVec 6) (f : BitVec 6)
  /-- FCVT_X2F (R159) -/
  | fcvtX2f (g : BitVec 4) (d : BitVec 6) (a : BitVec 6) (f : BitVec 6)
  /-- FCVT_F2I (R159) -/
  | fcvtF2i (g : BitVec 4) (d : BitVec 6) (a : BitVec 6)
  /-- FCVT_F2U (R159) -/
  | fcvtF2u (g : BitVec 4) (d : BitVec 6) (a : BitVec 6)
  /-- FCVT_I2F (R159) -/
  | fcvtI2f (g : BitVec 4) (d : BitVec 6) (a : BitVec 6)
  /-- FCVT_U2F (R159) -/
  | fcvtU2f (g : BitVec 4) (d : BitVec 6) (a : BitVec 6)
  /-- FCMP (R160) -/
  | fcmp (g : BitVec 4) (p : BitVec 3) (e : BitVec 3) (a : BitVec 6) (b : BitVec 6) (c : BitVec 4)
  /-- MXMUL (R173) -/
  | mxmul (g : BitVec 4) (d : BitVec 6) (a : BitVec 6) (b : BitVec 6)
  /-- MXMULS (R173) -/
  | mxmuls (g : BitVec 4) (d : BitVec 6) (a : BitVec 6) (b : BitVec 6)
  /-- MXFETCH (R171) -/
  | mxfetch (g : BitVec 4) (a : BitVec 6) (b : BitVec 6)
  /-- MXPROG (R177) -/
  | mxprog (g : BitVec 4) (a : BitVec 6) (b : BitVec 6)
  /-- MXDEF (R178) -/
  | mxdef (g : BitVec 4)
  /-- MXSCL (R180) -/
  | mxscl (g : BitVec 4) (a : BitVec 6)
  /-- MXRD (R175) -/
  | mxrd (g : BitVec 4) (d : BitVec 6) (a : BitVec 6)
  /-- MXWR (R175) -/
  | mxwr (g : BitVec 4) (d : BitVec 6) (a : BitVec 6)
  /-- MXZERO (R175) -/
  | mxzero (g : BitVec 4) (d : BitVec 6)
  /-- MXDRAIN (R176) -/
  | mxdrain (g : BitVec 4) (a : BitVec 6)
  /-- MXSTAT (R181) -/
  | mxstat (g : BitVec 4) (d : BitVec 6)
  /-- MXCLR (R181) -/
  | mxclr (g : BitVec 4)
  /-- MXCAP (R182) -/
  | mxcap (g : BitVec 4) (d : BitVec 6) (a : BitVec 6) (b : BitVec 6)
  /-- MXCMD (R183) -/
  | mxcmd (g : BitVec 4) (d : BitVec 6) (a : BitVec 6)
  /-- LD (R210) -/
  | ld (g : BitVec 4) (d : BitVec 6) (a : BitVec 6) (k : BitVec 3) (o : BitVec 7)
  /-- ST (R211) -/
  | st (g : BitVec 4) (d : BitVec 6) (a : BitVec 6) (k : BitVec 2) (o : BitVec 7)
  /-- LDA (R212) -/
  | lda (g : BitVec 4) (d : BitVec 6) (a : BitVec 6) (n : BitVec 2) (z : BitVec 1) (o : BitVec 7)
  /-- VLD (R214) -/
  | vld (g : BitVec 4) (d : BitVec 5) (a : BitVec 6) (o : BitVec 7)
  /-- VST (R214) -/
  | vst (g : BitVec 4) (d : BitVec 5) (a : BitVec 6) (o : BitVec 7)
  /-- VLDA (R214) -/
  | vlda (g : BitVec 4) (d : BitVec 5) (a : BitVec 6) (k : BitVec 3) (o : BitVec 7)
  /-- VLDS (R215) -/
  | vlds (g : BitVec 4) (d : BitVec 5) (a : BitVec 6) (b : BitVec 6)
  /-- VSTS (R215) -/
  | vsts (g : BitVec 4) (d : BitVec 5) (a : BitVec 6) (b : BitVec 6)
  /-- VLDX (R215) -/
  | vldx (g : BitVec 4) (d : BitVec 5) (a : BitVec 6) (v : BitVec 5)
  /-- VSTX (R216) -/
  | vstx (g : BitVec 4) (d : BitVec 5) (a : BitVec 6) (v : BitVec 5)
  /-- LDL (R217) -/
  | ldl (g : BitVec 4) (d : BitVec 6) (a : BitVec 6) (b : BitVec 6) (z : BitVec 1)
  /-- STL (R217) -/
  | stl (g : BitVec 4) (d : BitVec 6) (a : BitVec 6) (b : BitVec 6) (z : BitVec 1)
  /-- PST (R218) -/
  | pst (g : BitVec 4) (d : BitVec 6) (a : BitVec 6) (z : BitVec 1)
  /-- PREF (R219) -/
  | pref (g : BitVec 4) (a : BitVec 6)
  /-- CFETCH (R220) -/
  | cfetch (g : BitVec 4) (a : BitVec 6) (s : BitVec 4)
  /-- FLUSH (R221) -/
  | flush (g : BitVec 4) (a : BitVec 6)
  /-- AMO (R222) -/
  | amo (z : BitVec 1) (g : BitVec 4) (d : BitVec 6) (a : BitVec 6) (b : BitVec 6) (f : BitVec 4)
  /-- RED (R223) -/
  | red (z : BitVec 1) (g : BitVec 4) (a : BitVec 6) (b : BitVec 6) (f : BitVec 3)
  /-- TLADD (R283) -/
  | tladd (g : BitVec 4) (s : BitVec 3) (a : BitVec 6) (b : BitVec 6)
  /-- WAITGE (R284) -/
  | waitge (g : BitVec 4) (s : BitVec 3) (a : BitVec 6) (b : BitVec 6)
  /-- WAITA (R285) -/
  | waita (g : BitVec 4) (n : BitVec 2)
  /-- WATCH (R286) -/
  | watch (g : BitVec 4) (m : BitVec 2) (a : BitVec 6) (b : BitVec 6)
  /-- WAKE (R287) -/
  | wake (g : BitVec 4) (a : BitVec 6)
  /-- BARA (R297) -/
  | bara (g : BitVec 4) (d : BitVec 6) (a : BitVec 6) (b : BitVec 6)
  /-- BARW (R298) -/
  | barw (g : BitVec 4) (a : BitVec 6) (b : BitVec 6)
  /-- CPSET (R289) -/
  | cpset (g : BitVec 4) (a : BitVec 6) (r : BitVec 3)
  /-- CPGO (R290) -/
  | cpgo (g : BitVec 4) (d : BitVec 6)
  /-- CPPB (R291) -/
  | cppb (g : BitVec 4) (d : BitVec 6) (a : BitVec 6)
  /-- CPQ (R295) -/
  | cpq (g : BitVec 4) (d : BitVec 6) (a : BitVec 6)
  /-- NPUT (R86) -/
  | nput (g : BitVec 4) (t : BitVec 6) (a : BitVec 6) (d : BitVec 2) (c : BitVec 4) (v : BitVec 1)
  /-- NTAKE (R87) -/
  | ntake (g : BitVec 4) (t : BitVec 6) (a : BitVec 6) (v : BitVec 1)
  /-- SEND (R313) -/
  | send (g : BitVec 4) (a : BitVec 6) (b : BitVec 6)
  /-- RECV (R314) -/
  | recv (g : BitVec 4) (d : BitVec 6) (c : BitVec 2)
  /-- RECV_PARK (R315) -/
  | recvPark (g : BitVec 4) (c : BitVec 2)
  /-- PIPEPUT (R317) -/
  | pipeput (g : BitVec 4) (a : BitVec 6) (b : BitVec 6)
  /-- PIPEGET (R317) -/
  | pipeget (g : BitVec 4) (d : BitVec 6) (a : BitVec 6)
  /-- SUSP (R319) -/
  | susp (g : BitVec 4) (a : BitVec 6) (b : BitVec 6)
  /-- TASKPOP (R321) -/
  | taskpop (g : BitVec 4)
  /-- TASKPUSH (R320) -/
  | taskpush (g : BitVec 4) (b : BitVec 6)
  /-- LAUNCH (R323) -/
  | launch (g : BitVec 4) (a : BitVec 6) (b : BitVec 6)
  /-- SYSC (R330) -/
  | sysc (g : BitVec 4) (d : BitVec 6)
  /-- SYSC_NB (R330) -/
  | syscNb (g : BitVec 4) (a : BitVec 6) (b : BitVec 6)
  /-- JRNL (R328) -/
  | jrnl (g : BitVec 4) (d : BitVec 6) (a : BitVec 6)
  /-- RELST (R237) -/
  | relst (g : BitVec 4) (d : BitVec 6) (a : BitVec 6) (s : BitVec 3) (z : BitVec 1)
  /-- ACQLD (R238) -/
  | acqld (g : BitVec 4) (d : BitVec 6) (a : BitVec 6) (s : BitVec 3) (z : BitVec 1)
  /-- FENCE (R239) -/
  | fence (g : BitVec 4) (s : BitVec 3)
  /-- TRAP (R336) -/
  | trap (g : BitVec 4) (c : BitVec 6)
  /-- TRET (R338) -/
  | tret (g : BitVec 4)
  /-- MOVC (R89) -/
  | movc (g : BitVec 4) (d : BitVec 6) (c : BitVec 6)
  /-- MOVCW (R90) -/
  | movcw (g : BitVec 4) (c : BitVec 6) (b : BitVec 6)
  /-- SPRINT (R357) -/
  | sprint (g : BitVec 4) (a : BitVec 6) (b : BitVec 6)
  /-- UNSPRINT (R358) -/
  | unsprint (g : BitVec 4)
  /-- DBGBRK (R336) -/
  | dbgbrk (g : BitVec 4)
  /-- WSPSW (R337) -/
  | wspsw (g : BitVec 4) (a : BitVec 6) (b : BitVec 6)
  /-- TLBINV (R275) -/
  | tlbinv (g : BitVec 4) (a : BitVec 6) (b : BitVec 6)
  /-- CULTLD (R273) -/
  | cultld (g : BitVec 4) (a : BitVec 6) (b : BitVec 6)
  /-- RANGESET (R274) -/
  | rangeset (g : BitVec 4) (a : BitVec 6) (b : BitVec 6)
  /-- HOLD_TIMEOUT (R39) -/
  | holdTimeout (core ctx : Nat)
  /-- LANDING_RESERVATION_EXPIRY (R40) -/
  | landingReservationExpiry (core ctx : Nat)
  /-- PARK_GE_READ_COMPLETE (R114) -/
  | parkGeReadComplete (core ctx : Nat)
  /-- NPUT_LANDING (R86) -/
  | nputLanding (core ctx : Nat)
  /-- LDA_LANDING (R212) -/
  | ldaLanding (core ctx n : Nat)
  /-- VLDA_LANDING (R214) -/
  | vldaLanding (core ctx n : Nat)
  /-- STORE_PERFORMED (R230) -/
  | storePerformed (core ctx n : Nat)
  /-- PST_ACKNOWLEDGE (R218) -/
  | pstAcknowledge (core entry : Nat)
  /-- PST_REFUSAL (R218) -/
  | pstRefusal (core entry : Nat)
  /-- CFETCH_FILL_LANDED (R220) -/
  | cfetchFillLanded (core slot : Nat)
  /-- FETCH_SLOT_FILL (R171) -/
  | fetchSlotFill (quad slot : Nat)
  /-- COPY_COUNTER_ADD (R292) -/
  | copyCounterAdd (core slot : Nat)
  /-- MATRIX_OPERATION_FINISH (R164) -/
  | matrixOperationFinish (quad n : Nat)
  /-- MXCMD_ARRIVAL (R183) -/
  | mxcmdArrival (n : Nat)
  /-- MXCMD_ACCEPTANCE (R183) -/
  | mxcmdAcceptance (quad : Nat)
  /-- MXCMD_REFUSAL_RETURN (R183) -/
  | mxcmdRefusalReturn (n : Nat)
  /-- FLIT_ARRIVAL (R312) -/
  | flitArrival (core ch : Nat)
  /-- SCOPE_MISS_MESSAGE (R256) -/
  | scopeMissMessage (n : Nat)
  /-- SUSP_REGISTRATION (R319) -/
  | suspRegistration (n : Nat)
  /-- HELD_LAUNCH_ENQUEUE (R367) -/
  | heldLaunchEnqueue (vf queue : Nat)
  /-- DISPATCH (R52) -/
  | dispatch (part : Nat)
  /-- SEGMENT_ZERO_LOAD (R399) -/
  | segmentZeroLoad (hoop : Nat)
  /-- HOOP_START (R51) -/
  | hoopStart (hoop : Nat)
  /-- SLICE_EXPIRY (R54) -/
  | sliceExpiry (hoop : Nat)
  /-- DONE_ADD (R50) -/
  | doneAdd (hoop : Nat)
  /-- L1_UNFUSION_COMPLETE (R198) -/
  | l1UnfusionComplete (quad : Nat)
  /-- GANG_SWITCH_STOP (R341) -/
  | gangSwitchStop (part : Nat)
  /-- GANG_SWITCH_SAVE (R343) -/
  | gangSwitchSave (part : Nat)
  /-- RESUME (R345) -/
  | resume (part : Nat)
  /-- CULTURE_FLUSH (R221) -/
  | cultureFlush (line : Nat)
  /-- CULTURE_ACK (R264) -/
  | cultureAck (line : Nat)
  /-- CULTURE_DATA (R264) -/
  | cultureData (line : Nat)
  /-- CULTURE_CHECK_COMPLETE (R273) -/
  | cultureCheckComplete (core ctx : Nat)
  /-- RANGESET_PERFORMED (R274) -/
  | rangesetPerformed (core ctx : Nat)
  /-- TLBINV_PERFORMED (R275) -/
  | tlbinvPerformed (core ctx : Nat)
  /-- ILLEGAL_INSTRUCTION (R75) -/
  | illegalInstruction (cause : BitVec 6) (word : W32)
  /-- HOME_AGENT_PROBE (R264) -/
  | homeAgentProbe (line part : Nat)
  /-- COPY_LAST_BYTE_PERFORMED (R292) -/
  | copyLastBytePerformed (core slot : Nat)
  /-- PIN_RELEASE_COMPLETE (R171) -/
  | pinReleaseComplete (tile : Nat)
  /-- HOLD_CONDITION_CLEARS (R39) -/
  | holdConditionClears (core ctx : Nat)
  /-- LINE_FILL_COMPLETE (R40) -/
  | lineFillComplete (core line : Nat)
  /-- PAGE_WALK_COMPLETE (R202) -/
  | pageWalkComplete (core : Nat) (va : W64)
  /-- COPY_SECTOR_FAULT (R294) -/
  | copySectorFault (core slot : Nat)
  /-- LEASE_EXPIRY (R359) -/
  | leaseExpiry (quad : Nat)
  /-- RAIL_STEP (R355) -/
  | railStep (tile : Nat)
  /-- RAIL_HOLD_EXPIRY (R355) -/
  | railHoldExpiry (tile : Nat)
  /-- MISSED_PROMISE (R293) -/
  | missedPromise (core slot : Nat)
  /-- ASYNC_TRAP_DELIVERY (R334) -/
  | asyncTrapDelivery (core ctx : Nat)
  /-- LAUNCH_WINDOW_WRITE (R367) -/
  | launchWindowWrite (vf queue line off len : Nat) (data : BitVec 512)
  /-- LAUNCH_PACKET (R377) -/
  | launchPacket (port seq scheduler : Nat) (rec : BitVec 512)
  /-- DEFICIT_CHARGE (R52) -/
  | deficitCharge
  /-- HOOP_ABORT (R332) -/
  | hoopAbort (hoop : Nat)
  /-- DEBUG_STOP (R339) -/
  | debugStop (core ctx : Nat)
  /-- DEBUG_RELEASE (R339) -/
  | debugRelease (core ctx : Nat)
  /-- DEBUG_STEP (R339) -/
  | debugStep (core ctx : Nat)
  /-- DEBUG_FREEZE (R339) -/
  | debugFreeze (hoop : Nat)
  /-- DEBUG_THAW (R339) -/
  | debugThaw (hoop : Nat)
  /-- GANG_SWITCH_REQUEST (R341) -/
  | gangSwitchRequest (part time : Nat) (needed : List Nat)
  /-- QUAD_VF_ASSIGN (R371) -/
  | quadVfAssign (quad vf : Nat)
  /-- VF_CONFIGURATION (R372) -/
  | vfConfiguration (vf : Nat) (rec : VfRecord)
  /-- PARTITION_CONFIGURATION (R373) -/
  | partitionConfiguration (part : Nat) (rec : PartRecord)
  /-- RANGE_TABLE_CONFIGURATION (R270) -/
  | rangeTableConfiguration (entry vf : Nat)
  /-- LOCAL_WINDOW_ENTRY_WRITE (R193) -/
  | localWindowEntryWrite (core ctx n : Nat)
  /-- SELF_TEST_COMPLETE (R205) -/
  | selfTestComplete (unit : TestUnit) (bank : Nat) (pass : Bool)
  /-- CULTURE_RD (R263) -/
  | cultureRd (line part : Nat)
  /-- CULTURE_RDX (R263) -/
  | cultureRdx (line part : Nat)
  /-- CULTURE_WRL (R263) -/
  | cultureWrl (line part : Nat)
  /-- CULTURE_AMO (R263) -/
  | cultureAmo (line part : Nat)
  /-- CULTURE_RED (R263) -/
  | cultureRed (line part : Nat)
  /-- CULTURE_HRD (R263) -/
  | cultureHrd (pa size : Nat)
  /-- CULTURE_HWR (R365) -/
  | cultureHwr (pa size : Nat) (data : BitVec 512)
  /-- CULTURE_HAMO (R269) -/
  | cultureHamo (op pa size : Nat) (operand compare : BitVec 128)
  /-- CULTURE_EVC (R263) -/
  | cultureEvc (line part : Nat)
  /-- CULTURE_WB (R263) -/
  | cultureWb (line part : Nat)
  /-- CULTURE_ACQ (R232) -/
  | cultureAcq (line part : Nat)
  /-- CULTURE_REL (R263) -/
  | cultureRel (line part : Nat)
  /-- CULTURE_FLIP (R274) -/
  | cultureFlip (line : Nat)
  /-- HOME_MESSAGE_TIMEOUT (R279) -/
  | homeMessageTimeout (line : Nat)
  /-- RING_CONS_POLL (R324) -/
  | ringConsPoll (ring : Nat)
  /-- HWATCH_COMMIT (R369) -/
  | hwatchCommit (vf : Nat) (word3 : W64)
  /-- HCANCEL_WRITE (R368) -/
  | hcancelWrite (vf token : Nat)
  /-- REPORT_REQUEST (R381) -/
  | reportRequest (vf requester : Nat)
  /-- LINK_REPORT_REQUEST (R381) -/
  | linkReportRequest (port vf : Nat) (nonce : BitVec 384)
  /-- USAGE_REPORT_COMPLETE (R381) -/
  | usageReportComplete
  /-- REGISTER_PAGE_WRITE (R368) -/
  | registerPageWrite (vf off : Nat) (data : W64)
  /-- LINK_MEMORY_OPERATION (R376) -/
  | linkMemoryOperation (port vf op pa size : Nat) (operand compare : W64)
  /-- BUDGET_TICK (R350) -/
  | budgetTick (power cold : Nat) (energy : List (Nat × Nat))
  /-- COOLANT_ALARM (R351) -/
  | coolantAlarm
  /-- DEVICE_RESET (R382) -/
  | deviceReset
  /-- SOFT_ERROR (R204) -/
  | softError (place : SoftPlace) (correctable : Bool)
  /-- DEVICE_REQUEST_REPEAT (R398) -/
  | deviceRequestRepeat (core ctx n : Nat)
  /-- PARTICIPANT_REPORTS_GATED (R279) -/
  | participantReportsGated (part : Nat)
  /-- VF_RESET (R369) -/
  | vfReset (vf : Nat)
  /-- FIRMWARE_UPDATE (R382) -/
  | firmwareUpdate (version : Nat)
  /-- DEBUGGER_ATTACH (R339) -/
  | debuggerAttach (hoop : Nat)
  /-- DEBUGGER_DETACH (R339) -/
  | debuggerDetach (hoop : Nat)
  /-- DEBUG_STATE_WRITE (R339) -/
  | debugStateWrite (core ctx : Nat) (what : DebugWrite)
  deriving DecidableEq, Repr

end Sys2Proof
end

