-- ==== Sys2Proof/Machine/Formats.lean ====
section
/-!
DEFINITION. The columns of the format-code table (R119), the condition codes (R74), and which operand values name an
instruction at all (R73, R75): a selector outside its limit raises cause 0x01, a reserved bit cause 0x02.
-/

namespace Sys2Proof

/-- A code of the binary8 family: bit 5 set and P from 1 to 7 (R119). -/
def fmtBinary8 (f : BitVec 6) : Bool := f.getLsbD 5 && f.extractLsb' 0 3 != 0
/-- VCVT, FCVT column of R119. -/
def fmtCvt (f : BitVec 6) : Bool := f == 1 || f == 2 || f == 3 || f == 4 || fmtBinary8 f
/-- VPACK, VUNPK column of R119. -/
def fmtPack (f : BitVec 6) : Bool := f == 2 || f == 3 || f == 4 || fmtBinary8 f
/-- Page element format column of R119. -/
def fmtPage (f : BitVec 6) : Bool := f == 0 || f == 1 || f == 2 || f == 3 || fmtBinary8 f
/-- Matrix operand column of R119. -/
def fmtMatrix (f : BitVec 6) : Bool := f == 1 || f == 2 || f == 3 || fmtBinary8 f
/-- Bytes of one element in memory (R119). -/
def fmtBytes (f : BitVec 6) : Nat := if f == 0 || f == 1 then 4 else if f == 2 || f == 3 then 2 else 1

/-- Condition codes of the integer compares (R74). -/
def ccInt (c : BitVec 4) : Bool := c.toNat ≤ 0xA
/-- Condition codes of the float compares (R74). -/
def ccFloat (c : BitVec 4) : Bool := c.toNat ≤ 0x5 || c == 0xB

/-- Every value that selects an operation, a register limit or a form is an assigned one (R73, R75): where this
fails the word raises cause 0x01. -/
def Instr.selectorOk : Instr → Bool
  | .hint _ l _ => l != 3
  | .mod m _ _ => m.toNat < 6
  | .cmp _ _ _ _ _ c => ccInt c
  | .cmpi _ _ _ _ _ c => ccInt c
  | .fcmp _ _ _ _ _ c => ccFloat c
  | .vcmp _ _ _ _ c => ccInt c
  | .vfcmp _ _ _ _ c => ccFloat c
  | .parkNbS _ n => n != 0
  | .vcvtF2x _ _ _ f => fmtCvt f
  | .vcvtX2f _ _ _ f => fmtCvt f
  | .fcvtF2x _ _ _ f => fmtCvt f
  | .fcvtX2f _ _ _ f => fmtCvt f
  | .vpack _ _ _ f p => fmtPack f && (fmtBytes f == 1 || p.toNat < 2)
  | .vunpk _ _ _ f p => fmtPack f && (fmtBytes f == 1 || p.toNat < 2)
  | .ld _ _ _ k _ => k != 7
  | .vlda _ _ _ k _ => 2 ≤ k.toNat && k.toNat ≤ 5
  | .amo _ _ _ _ _ f => f.toNat ≤ 9
  | .tladd _ s _ _ => s.toNat ≤ 5
  | .waitge _ s _ _ => s.toNat ≤ 5
  | .watch _ m _ _ => m != 3
  | .cpgo _ d => d.toNat ≤ 62
  | .cppb _ d _ => d.toNat ≤ 62
  | .nput _ t _ _ _ v => v == 1 || t != 0
  | .ntake _ _ a v => v == 1 || a != 0
  | .susp _ a b => a.toNat ≤ 62 && b.toNat ≤ 62
  | .taskpush _ b => b.toNat ≤ 62
  | .sysc _ d => d.toNat ≤ 62
  | .syscNb _ _ b => b.toNat ≤ 60
  | .jrnl _ d _ => d.toNat ≤ 62
  | .relst _ _ _ s _ => s.toNat ≤ 5
  | .acqld _ _ _ s _ => s.toNat ≤ 5
  | .fence _ s => s.toNat ≤ 5
  | .movc _ _ c => c.toNat ≤ 28
  | .movcw _ c _ => c.toNat ≤ 28
  | .rangeset _ _ b => b.toNat ≤ 62
  | _ => true

/-- No operand field holds a bit that the instruction's form reserves (R73, R86, R282): cause 0x02. -/
def Instr.reservedOk : Instr → Bool
  | .watch _ m _ b => m == 1 || b == 0
  | .nput _ t a _ _ v => v == 0 || (t.toNat < 32 && a.toNat < 32)
  | .ntake _ t a v => v == 0 || (t.toNat < 32 && a.toNat < 32)
  | _ => true

/-- The words of the rows NOP, MOVI and JMP are decoded to those rows (R60, R101, R108). -/
def Instr.named : Instr → Bool
  | .add g d a b => !(g == 15 && d == 0 && a == 0 && b == 0)
  | .addi _ _ a _ => a != 0
  | .br g _ => g != 7
  | _ => true

/-- A step of the part that no instruction word names (spec/opcode_table.json gives it no match). -/
def Instr.isEvent : Instr → Bool
  | .holdTimeout _ _ => true
  | .holdConditionClears _ _ => true
  | .landingReservationExpiry _ _ => true
  | .lineFillComplete _ _ => true
  | .pageWalkComplete _ _ => true
  | .parkGeReadComplete _ _ => true
  | .nputLanding _ _ => true
  | .ldaLanding _ _ _ => true
  | .vldaLanding _ _ _ => true
  | .storePerformed _ _ _ => true
  | .pstAcknowledge _ _ => true
  | .pstRefusal _ _ => true
  | .cfetchFillLanded _ _ => true
  | .fetchSlotFill _ _ => true
  | .copyCounterAdd _ _ => true
  | .copySectorFault _ _ => true
  | .missedPromise _ _ => true
  | .matrixOperationFinish _ _ => true
  | .mxcmdArrival _ => true
  | .mxcmdAcceptance _ => true
  | .mxcmdRefusalReturn _ => true
  | .flitArrival _ _ => true
  | .scopeMissMessage _ => true
  | .asyncTrapDelivery _ _ => true
  | .suspRegistration _ => true
  | .launchWindowWrite _ _ _ _ _ _ => true
  | .launchPacket _ _ _ _ => true
  | .heldLaunchEnqueue _ _ => true
  | .deficitCharge => true
  | .dispatch _ => true
  | .segmentZeroLoad _ => true
  | .hoopStart _ => true
  | .sliceExpiry _ => true
  | .doneAdd _ => true
  | .l1UnfusionComplete _ => true
  | .hoopAbort _ => true
  | .debugStop _ _ => true
  | .debugRelease _ _ => true
  | .debugStep _ _ => true
  | .debugFreeze _ => true
  | .debugThaw _ => true
  | .gangSwitchRequest _ _ _ => true
  | .gangSwitchStop _ => true
  | .gangSwitchSave _ => true
  | .resume _ => true
  | .quadVfAssign _ _ => true
  | .vfConfiguration _ _ => true
  | .partitionConfiguration _ _ => true
  | .rangeTableConfiguration _ _ => true
  | .localWindowEntryWrite _ _ _ => true
  | .selfTestComplete _ _ _ => true
  | .cultureRd _ _ => true
  | .cultureRdx _ _ => true
  | .cultureWrl _ _ => true
  | .cultureAmo _ _ => true
  | .cultureRed _ _ => true
  | .cultureHrd _ _ => true
  | .cultureHwr _ _ _ => true
  | .cultureHamo _ _ _ _ _ => true
  | .cultureEvc _ _ => true
  | .cultureWb _ _ => true
  | .cultureAcq _ _ => true
  | .cultureRel _ _ => true
  | .cultureFlush _ => true
  | .cultureFlip _ => true
  | .cultureAck _ => true
  | .cultureData _ => true
  | .homeMessageTimeout _ => true
  | .cultureCheckComplete _ _ => true
  | .rangesetPerformed _ _ => true
  | .tlbinvPerformed _ _ => true
  | .ringConsPoll _ => true
  | .hwatchCommit _ _ => true
  | .hcancelWrite _ _ => true
  | .reportRequest _ _ => true
  | .linkReportRequest _ _ _ => true
  | .usageReportComplete => true
  | .registerPageWrite _ _ _ => true
  | .linkMemoryOperation _ _ _ _ _ _ _ => true
  | .budgetTick _ _ _ => true
  | .leaseExpiry _ => true
  | .coolantAlarm => true
  | .railStep _ => true
  | .railHoldExpiry _ => true
  | .deviceReset => true
  | .illegalInstruction _ _ => true
  | .softError _ _ => true
  | .homeAgentProbe _ _ => true
  | .deviceRequestRepeat _ _ _ => true
  | .participantReportsGated _ => true
  | .copyLastBytePerformed _ _ => true
  | .pinReleaseComplete _ => true
  | .vfReset _ => true
  | .firmwareUpdate _ => true
  | .debuggerAttach _ => true
  | .debuggerDetach _ => true
  | .debugStateWrite _ _ _ => true
  | _ => false

end Sys2Proof
end

