-- ==== Sys2Proof/WellFormed.lean ====
section
/-!
DEFINITION. The well-formed instructions: those that some word of the encoding stands for (R58 to R76), and the events
whose numbers name units that exist (R12, R14, R21).
-/

namespace Sys2Proof

def okCore (n : Nat) : Bool := n < 1536
def okCtx (c k : Nat) : Bool := c < 1536 && k < 16
def okQuad (q : Nat) : Bool := q < 384
def okTile (t : Nat) : Bool := t < 48
def okVf (v : Nat) : Bool := v < 384
/-- Participants: the 48 L2 slices and the hub's CXL side (R263). -/
def okPart (p : Nat) : Bool := p < 49

/-- Ports of the hub (R10, R20): UALink 0 to 11, Ultra Ethernet 12 to 15 (log 33). -/
def okPort (p : Nat) : Bool := p < 16

/-- The memory under test exists, and has the bank. -/
def TestUnit.ok (b : Nat) : TestUnit → Bool
  | .localMem q => okQuad q && b < 32
  | .acc q => okQuad q && b = 0
  | .code c | .l1 c | .coreTlb c => okCore c && b = 0
  | .l2 t | .sharedTlb t | .service t => okTile t && b = 0

/-- The numbers of an event name units of the part. -/
def Instr.unitsOk : Instr → Bool
  | .holdTimeout c k | .holdConditionClears c k | .landingReservationExpiry c k | .parkGeReadComplete c k
  | .nputLanding c k | .asyncTrapDelivery c k | .debugStop c k | .debugRelease c k | .debugStep c k
  | .cultureCheckComplete c k | .rangesetPerformed c k | .tlbinvPerformed c k => okCtx c k
  | .ldaLanding c k _ | .vldaLanding c k _ | .storePerformed c k _ | .localWindowEntryWrite c k _
  | .deviceRequestRepeat c k _ | .debugStateWrite c k _ => okCtx c k
  | .lineFillComplete c _ | .pageWalkComplete c _ => okCore c
  | .copySectorFault c _ => okCore c
  | .pstAcknowledge c e | .pstRefusal c e | .copyCounterAdd c e | .missedPromise c e
  | .copyLastBytePerformed c e => okCore c && e < 32
  | .cfetchFillLanded c e => okCore c && e < 16
  | .flitArrival c e => okCore c && e < 4
  | .fetchSlotFill q e => okQuad q && e < 4
  | .matrixOperationFinish q _ | .mxcmdAcceptance q | .l1UnfusionComplete q | .leaseExpiry q => okQuad q
  | .launchWindowWrite v q i o l _ => okVf v && q < 8 && i < 64 && o + l ≤ 64
  | .heldLaunchEnqueue v q => okVf v && q < 8
  | .quadVfAssign q v => okQuad q && okVf v
  | .vfConfiguration v _ | .hwatchCommit v _ | .hcancelWrite v _ | .registerPageWrite v _ _
  | .vfReset v => okVf v
  | .reportRequest v r => okVf v && okVf r
  | .linkReportRequest p v _ => okPort p && okVf v
  | .linkMemoryOperation p v _ _ _ _ _ => okPort p && okVf v
  | .launchPacket p _ _ _ => okPort p
  | .partitionConfiguration p _ | .dispatch p | .gangSwitchRequest p _ _ | .gangSwitchStop p
  | .gangSwitchSave p | .resume p => p < 384
  | .rangeTableConfiguration e v => e < 256 && okVf v
  | .selfTestComplete u b _ => u.ok b
  | .cultureRd _ p | .cultureRdx _ p | .cultureWrl _ p | .cultureAmo _ p | .cultureRed _ p
  | .cultureEvc _ p | .cultureWb _ p | .cultureAcq _ p | .cultureRel _ p | .homeAgentProbe _ p
  | .participantReportsGated p => okPart p
  | .railStep t | .railHoldExpiry t | .pinReleaseComplete t => okTile t
  | .illegalInstruction c _ => c == 0x01 || c == 0x02 || c == 0x06 || c == 0x3B
  | _ => true

/-- Well-formed: a word stands for the instruction, or the event's units exist. -/
def Instr.wellFormed (i : Instr) : Bool := i.selectorOk && i.reservedOk && i.named && i.unitsOk

end Sys2Proof
end

