-- ==== Sys2Proof/Decode.lean ====
section
/-!
DEFINITION. The decoder of instruction words, total on every word and rejecting by name, and the encoder, both from
the formats of R61 and the maps of R72 and R73.
-/

namespace Sys2Proof

/-- What a word is (R75): an instruction; the word of one with a nonzero reserved field (cause 0x02); none at all
(cause 0x01). -/
inductive Decoded where
  | ok (i : Instr)
  | reserved (i : Instr)
  | illegal
  deriving DecidableEq, Repr

/-! Fields of a word (R61). -/

def wOp (w : W32) : BitVec 6 := w.extractLsb' 26 6
def wG (w : W32) : BitVec 4 := w.extractLsb' 22 4
def wD (w : W32) : BitVec 6 := w.extractLsb' 16 6
def wA (w : W32) : BitVec 6 := w.extractLsb' 10 6
def wB (w : W32) : BitVec 6 := w.extractLsb' 4 6
def wFn (w : W32) : BitVec 4 := w.extractLsb' 0 4
def wImm10 (w : W32) : BitVec 10 := w.extractLsb' 0 10
def wK (w : W32) : BitVec 3 := w.extractLsb' 7 3
def wOff7 (w : W32) : BitVec 7 := w.extractLsb' 0 7
def wPd (w : W32) : BitVec 3 := w.extractLsb' 19 3
def wPe (w : W32) : BitVec 3 := w.extractLsb' 16 3
def wVd (w : W32) : BitVec 5 := w.extractLsb' 17 5
def wVa (w : W32) : BitVec 5 := w.extractLsb' 12 5
def wVb (w : W32) : BitVec 5 := w.extractLsb' 7 5
def wType (w : W32) : BitVec 2 := w.extractLsb' 5 2
def wFn5 (w : W32) : BitVec 5 := w.extractLsb' 0 5
/-- Bits [hi:lo] of the word are not all zero, for a reserved field. -/
def wSome (w : W32) (lo len : Nat) : Bool := w.extractLsb' lo len != 0

/-- An assigned word whose reserved fields are nonzero when `bad`. -/
def word (bad : Bool) (i : Instr) : Option (Bool × Instr) := some (bad, i)

/-! One function a major (R72, R73); `none` is an unassigned selector. -/

def dec04 (w : W32) : Option (Bool × Instr) :=
  let g := wG w; let d := wD w; let a := wA w; let b := wB w
  match (wFn w).toNat with
  | 0 => word false (if g == 15 && d == 0 && a == 0 && b == 0 then .nop else .add g d a b)
  | 1 => word false (.sub g d a b) | 2 => word false (.mul g d a b) | 3 => word false (.mulh g d a b)
  | 4 => word false (.mulhu g d a b) | 5 => word false (.div g d a b) | 6 => word false (.divu g d a b)
  | 7 => word false (.rem g d a b) | 8 => word false (.remu g d a b) | 9 => word false (.and g d a b)
  | 10 => word false (.or g d a b) | 11 => word false (.xor g d a b) | 12 => word false (.shl g d a b)
  | 13 => word false (.shr g d a b) | 14 => word false (.sar g d a b) | _ => word false (.rot g d a b)

def dec05 (w : W32) : Option (Bool × Instr) :=
  let g := wG w; let d := wD w; let a := wA w; let b := wB w
  match (wFn w).toNat with
  | 0 => word false (.min g d a b) | 1 => word false (.max g d a b) | 2 => word false (.minu g d a b)
  | 3 => word false (.maxu g d a b)
  | 4 => word (b != 0) (.clz g d a) | 5 => word (b != 0) (.ctz g d a) | 6 => word (b != 0) (.popc g d a)
  | 7 => word (b != 0) (.mov g d a)
  | 8 => word false (.ext g d a b) | 9 => word false (.extS g d a b) | 10 => word false (.ins g d a b)
  | 11 => none
  | _ => word false (.lea g d a b (w.extractLsb' 0 2))

def dec07 (w : W32) : Option (Bool × Instr) :=
  word false (if wA w == 0 then .movi (wG w) (wD w) (wImm10 w) else .addi (wG w) (wD w) (wA w) (wImm10 w))

def dec0B (w : W32) : Option (Bool × Instr) :=
  let g := wG w; let d := wD w; let a := wA w; let n : BitVec 6 := w.extractLsb' 0 6
  let bad := wSome w 6 2
  match (w.extractLsb' 8 2).toNat with
  | 0 => word bad (.shli g d a n) | 1 => word bad (.shri g d a n) | 2 => word bad (.sari g d a n)
  | _ => none

def dec0E (w : W32) : Option (Bool × Instr) :=
  let g := wG w; let pd := wPd w; let pa : BitVec 3 := w.extractLsb' 10 3; let pb : BitVec 3 := w.extractLsb' 4 3
  let bad := wSome w 13 6 || wSome w 7 3
  match (wFn w).toNat with
  | 0 => word bad (.pand g pd pa pb) | 1 => word bad (.por g pd pa pb) | 2 => word bad (.pxor g pd pa pb)
  | 3 => word (bad || pb != 0) (.pnot g pd pa)
  | _ => none

def dec10 (w : W32) : Option (Bool × Instr) :=
  word false (if wG w == 7 then .jmp (w.extractLsb' 0 22) else .br (wG w) (w.extractLsb' 0 22))

def dec13 (w : W32) : Option (Bool × Instr) :=
  let g := wG w; let a := wA w
  let d0 := wSome w 16 6; let a0 := wSome w 10 6; let b0 := wSome w 4 6
  match (wFn w).toNat with
  | 0 => word (d0 || b0) (.jmpr g a) | 1 => word (d0 || b0) (.callr g a) | 2 => word (d0 || b0) (.ret g a)
  | 3 => word (d0 || b0) (.jseg g a)
  | 4 => word (d0 || a0 || b0) (.yield g)
  | 5 => word d0 (.parkGe g a (wB w))
  | 6 => word (a0 || b0) (.parkNbS g (wD w))
  | 7 => word (wSome w 16 1 || a0 || b0) (.parkNbV g (wVd w))
  | 8 => word (d0 || b0) (.parkWatch g a)
  | 9 => word (d0 || a0 || b0) (.exit g)
  | _ => none

def dec14 (w : W32) : Option (Bool × Instr) :=
  let g := wG w; let d := wVd w; let a := wVa w; let b := wVb w; let t := (wType w).toNat
  let fn := (wFn5 w).toNat
  if t ≥ 2 || (t == 1 && fn != 10 && fn != 11) then none else
  match fn with
  | 0 => word false (.vadd g d a b) | 1 => word false (.vsub g d a b) | 2 => word false (.vmul g d a b)
  | 3 => word false (.vmad g d a b) | 4 => word false (.vand g d a b) | 5 => word false (.vor g d a b)
  | 6 => word false (.vxor g d a b) | 7 => word false (.vshl g d a b) | 8 => word false (.vshr g d a b)
  | 9 => word false (.vsar g d a b)
  | 10 => word false (.vmin g d a b (w.extractLsb' 5 1)) | 11 => word false (.vmax g d a b (w.extractLsb' 5 1))
  | 12 => word (b != 0) (.vabs g d a)
  | 13 => word false (.vsel g d a b) | 14 => word false (.vshuf g d a b) | 15 => word false (.vrot g d a b)
  | _ => word (wSome w 20 2) (.vcmp g (w.extractLsb' 17 3) a b (wFn w))

def dec15 (w : W32) : Option (Bool × Instr) :=
  let g := wG w; let s := wD w; let v : BitVec 5 := w.extractLsb' 11 5; let t := (wType w).toNat
  let fn := (wFn5 w).toNat; let bad := wSome w 7 4
  if t ≥ 2 || (t == 1 && fn != 6 && fn != 7) then none else
  match fn with
  | 0 => word bad (.vbcast g s v)
  | 1 => word (bad || s != 0) (.vlane g v)
  | 2 => word bad (.vredAdd g s v) | 3 => word bad (.vredAnd g s v) | 4 => word bad (.vredOr g s v)
  | 5 => word bad (.vredXor g s v)
  | 6 => word bad (.vredMin g s v (w.extractLsb' 5 1)) | 7 => word bad (.vredMax g s v (w.extractLsb' 5 1))
  | 8 => word bad (.vfredAdd g s v) | 9 => word bad (.vfredMin g s v) | 10 => word bad (.vfredMax g s v)
  | _ => none

def dec16 (w : W32) : Option (Bool × Instr) :=
  let g := wG w; let d := wVd w; let a := wVa w; let b := wVb w
  if wType w != 0 then none else
  match (wFn5 w).toNat with
  | 0 => word false (.vfadd g d a b) | 1 => word false (.vfsub g d a b) | 2 => word false (.vfmul g d a b)
  | 3 => word false (.vfma g d a b) | 4 => word false (.vfms g d a b) | 5 => word false (.vfnma g d a b)
  | 6 => word false (.vfmin g d a b) | 7 => word false (.vfmax g d a b)
  | 8 => word (b != 0) (.vfabs g d a) | 9 => word (b != 0) (.vfneg g d a) | 10 => word (b != 0) (.vfrcp g d a)
  | 11 => word (b != 0) (.vfrsq g d a) | 12 => word (b != 0) (.vfsqrt g d a)
  | 13 => word (b != 0) (.vfexp2 g d a) | 14 => word (b != 0) (.vflog2 g d a)
  | 15 => word (b != 0) (.vfclass g d a)
  | _ => word (wSome w 20 2) (.vfcmp g (w.extractLsb' 17 3) a b (wFn w))

def dec17 (w : W32) : Option (Bool × Instr) :=
  let g := wG w; let d := wVd w; let a := wVa w; let f : BitVec 6 := w.extractLsb' 6 6
  let p : BitVec 2 := w.extractLsb' 4 2
  let f0 := f != 0; let p0 := p != 0
  match (wFn w).toNat with
  | 0 => word p0 (.vcvtF2x g d a f) | 1 => word p0 (.vcvtX2f g d a f)
  | 2 => word (f0 || p0) (.vcvtF2i g d a) | 3 => word (f0 || p0) (.vcvtF2u g d a)
  | 4 => word (f0 || p0) (.vcvtI2f g d a) | 5 => word (f0 || p0) (.vcvtU2f g d a)
  | 6 => word false (.vpack g d a f p) | 7 => word false (.vunpk g d a f p)
  | 8 => word (f0 || p0) (.vfrnd g d a)
  | _ => none

def dec18 (w : W32) : Option (Bool × Instr) :=
  let g := wG w; let d := wD w; let a := wA w; let b := wB w; let b0 := b != 0
  match (wFn w).toNat with
  | 0 => word false (.fadd g d a b) | 1 => word false (.fsub g d a b) | 2 => word false (.fmul g d a b)
  | 3 => word false (.ffma g d a b) | 4 => word false (.fmin g d a b) | 5 => word false (.fmax g d a b)
  | 6 => word false (.fcvtF2x g d a b) | 7 => word false (.fcvtX2f g d a b)
  | 8 => word b0 (.fcvtF2i g d a) | 9 => word b0 (.fcvtF2u g d a) | 10 => word b0 (.fcvtI2f g d a)
  | 11 => word b0 (.fcvtU2f g d a)
  | _ => none

def dec20 (w : W32) : Option (Bool × Instr) :=
  let g := wG w; let d := wD w; let a := wA w; let b := wB w
  let d0 := d != 0; let a0 := a != 0; let b0 := b != 0
  match (wFn w).toNat with
  | 0 => word false (.mxmul g d a b) | 1 => word false (.mxmuls g d a b)
  | 2 => word d0 (.mxfetch g a b) | 3 => word d0 (.mxprog g a b)
  | 4 => word (d0 || a0 || b0) (.mxdef g) | 5 => word (d0 || b0) (.mxscl g a)
  | 6 => word b0 (.mxrd g d a) | 7 => word b0 (.mxwr g d a) | 8 => word (a0 || b0) (.mxzero g d)
  | 9 => word (d0 || b0) (.mxdrain g a) | 10 => word (a0 || b0) (.mxstat g d)
  | 11 => word (d0 || a0 || b0) (.mxclr g) | 12 => word false (.mxcap g d a b) | 13 => word b0 (.mxcmd g d a)
  | _ => none

def dec29 (w : W32) : Option (Bool × Instr) :=
  if w.getLsbD 7 then none else word false (.st (wG w) (wD w) (wA w) (w.extractLsb' 8 2) (wOff7 w))

def dec2B (w : W32) : Option (Bool × Instr) :=
  let g := wG w; let d := wVd w; let a := wA w; let o := wOff7 w; let bad := wSome w 16 1
  match (wK w).toNat with
  | 0 => word bad (.vld g d a o) | 1 => word bad (.vst g d a o)
  | _ => word bad (.vlda g d a (wK w) o)

def dec2C (w : W32) : Option (Bool × Instr) :=
  let g := wG w; let d := wVd w; let a := wA w; let bad := wSome w 16 1; let v : BitVec 5 := w.extractLsb' 4 5
  match (wFn w).toNat with
  | 0 => word bad (.vlds g d a (wB w)) | 1 => word bad (.vsts g d a (wB w))
  | 2 => word (bad || wSome w 9 1) (.vldx g d a v) | 3 => word (bad || wSome w 9 1) (.vstx g d a v)
  | _ => none

def dec2D (w : W32) : Option (Bool × Instr) :=
  let g := wG w; let d := wD w; let a := wA w; let b := wB w; let z : BitVec 1 := w.extractLsb' 0 1
  let d0 := d != 0; let b0 := b != 0
  match (wFn w).toNat with
  | 0 => word false (.ldl g d a b z) | 1 => word false (.ldl g d a b z)
  | 2 => word false (.stl g d a b z) | 3 => word false (.stl g d a b z)
  | 4 => word b0 (.pst g d a z) | 5 => word b0 (.pst g d a z)
  | 6 => word (d0 || b0) (.pref g a)
  | 7 => word (d0 || wSome w 8 2) (.cfetch g a (w.extractLsb' 4 4))
  | 8 => word (d0 || b0) (.flush g a)
  | _ => none

def dec30 (w : W32) : Option (Bool × Instr) :=
  word false (.amo (w.extractLsb' 26 1) (wG w) (wD w) (wA w) (wB w) (wFn w))

def dec32 (w : W32) : Option (Bool × Instr) :=
  if w.getLsbD 3 then none
  else word (wD w != 0) (.red (w.extractLsb' 26 1) (wG w) (wA w) (wB w) (w.extractLsb' 0 3))

def dec34 (w : W32) : Option (Bool × Instr) :=
  let g := wG w; let d := wD w; let a := wA w; let b := wB w; let s : BitVec 3 := w.extractLsb' 16 3
  let d0 := d != 0; let a0 := a != 0; let b0 := b != 0
  match (wFn w).toNat with
  | 0 => word (wSome w 19 3) (.tladd g s a b) | 1 => word (wSome w 19 3) (.waitge g s a b)
  | 2 => if wSome w 18 4 then none else word (a0 || b0) (.waita g (w.extractLsb' 16 2))
  | 3 => word (wSome w 18 4) (.watch g (w.extractLsb' 16 2) a b)
  | 4 => word (d0 || b0) (.wake g a)
  | 5 => word false (.bara g d a b) | 6 => word d0 (.barw g a b)
  | _ => none

def dec35 (w : W32) : Option (Bool × Instr) :=
  let g := wG w; let d := wD w; let a := wA w
  let d0 := d != 0; let a0 := a != 0; let b0 := wB w != 0
  match (wFn w).toNat with
  | 8 => word (a0 || b0) (.cpgo g d) | 9 => word b0 (.cppb g d a) | 10 => word b0 (.cpq g d a)
  | 11 => none | 12 => none | 13 => none | 14 => none | 15 => none
  | _ => word (d0 || b0) (.cpset g a (w.extractLsb' 0 3))

def dec38 (w : W32) : Option (Bool × Instr) :=
  let g := wG w; let t := wD w; let a := wA w; let v : BitVec 1 := w.extractLsb' 3 1
  match (w.extractLsb' 0 3).toNat with
  | 0 => word false (.nput g t a (w.extractLsb' 8 2) (w.extractLsb' 4 4) v)
  | 1 => word (wSome w 4 6) (.ntake g t a v)
  | _ => none

def dec39 (w : W32) : Option (Bool × Instr) :=
  let g := wG w; let d := wD w; let a := wA w; let b := wB w; let c : BitVec 2 := w.extractLsb' 4 2
  let d0 := d != 0; let a0 := a != 0; let b0 := b != 0; let b6 := wSome w 6 4
  match (wFn w).toNat with
  | 0 => word d0 (.send g a b) | 1 => word (a0 || b6) (.recv g d c)
  | 2 => word (d0 || a0 || b6) (.recvPark g c)
  | 3 => word d0 (.pipeput g a b) | 4 => word b0 (.pipeget g d a) | 5 => word d0 (.susp g a b)
  | 6 => word (d0 || a0 || b0) (.taskpop g) | 7 => word (d0 || a0) (.taskpush g b)
  | 8 => word d0 (.launch g a b) | 9 => word (a0 || b0) (.sysc g d) | 10 => word d0 (.syscNb g a b)
  | 11 => word b0 (.jrnl g d a)
  | _ => none

def dec3C (w : W32) : Option (Bool × Instr) :=
  let g := wG w; let d := wD w; let a := wA w; let s : BitVec 3 := w.extractLsb' 7 3
  let z : BitVec 1 := w.extractLsb' 6 1; let bad := wSome w 4 2
  match (wFn w).toNat with
  | 0 => word bad (.relst g d a s z) | 1 => word bad (.acqld g d a s z)
  | 2 => word (bad || d != 0 || a != 0 || z != 0) (.fence g s)
  | _ => none

def dec3E (w : W32) : Option (Bool × Instr) :=
  let g := wG w; let d := wD w; let a := wA w; let b := wB w
  let d0 := d != 0; let a0 := a != 0; let b0 := b != 0
  match (wFn w).toNat with
  | 0 => word (d0 || b0) (.trap g a) | 1 => word (d0 || a0 || b0) (.tret g)
  | 2 => word b0 (.movc g d a) | 3 => word d0 (.movcw g a b) | 4 => word d0 (.sprint g a b)
  | 5 => word (d0 || a0 || b0) (.unsprint g) | 6 => word (d0 || a0 || b0) (.dbgbrk g)
  | 7 => word d0 (.wspsw g a b) | 8 => word d0 (.tlbinv g a b) | 9 => word d0 (.cultld g a b)
  | 10 => word d0 (.rangeset g a b)
  | _ => none

/-- The major map (R72). -/
def decMajor (w : W32) : Option (Bool × Instr) :=
  let g := wG w; let d := wD w; let a := wA w; let b := wB w
  match (wOp w).toNat with
  | 0x00 => word false (.imm (w.extractLsb' 0 26))
  | 0x01 => word false (.onnr (w.extractLsb' 0 26))
  | 0x02 => word (wSome w 9 17 || wSome w 0 3) (.hint (w.extractLsb' 6 3) (w.extractLsb' 4 2) (w.extractLsb' 3 1))
  | 0x03 => word (wSome w 8 18 || wSome w 0 2) (.mod (w.extractLsb' 5 3) (w.extractLsb' 4 1) (w.extractLsb' 2 2))
  | 0x04 => dec04 w
  | 0x05 => dec05 w
  | 0x06 => word false (.sel g d a b (w.extractLsb' 3 1) (w.extractLsb' 0 3))
  | 0x07 => dec07 w
  | 0x08 => word false (.andi g d a (wImm10 w))
  | 0x09 => word false (.ori g d a (wImm10 w))
  | 0x0A => word false (.xori g d a (wImm10 w))
  | 0x0B => dec0B w
  | 0x0C => word false (.cmp g (wPd w) (wPe w) a b (wFn w))
  | 0x0D => word false (.cmpi g (wPd w) (wPe w) a b (wFn w))
  | 0x0E => dec0E w
  | 0x10 => dec10 w
  | 0x11 => word false (.call g (w.extractLsb' 0 22))
  | 0x12 => word (a != 0) (.loop g d (wImm10 w))
  | 0x13 => dec13 w
  | 0x14 => dec14 w
  | 0x15 => dec15 w
  | 0x16 => dec16 w
  | 0x17 => dec17 w
  | 0x18 => dec18 w
  | 0x19 => word false (.fcmp g (wPd w) (wPe w) a b (wFn w))
  | 0x20 => dec20 w
  | 0x28 => word false (.ld g d a (wK w) (wOff7 w))
  | 0x29 => dec29 w
  | 0x2A => word false (.lda g d a (w.extractLsb' 8 2) (w.extractLsb' 7 1) (wOff7 w))
  | 0x2B => dec2B w
  | 0x2C => dec2C w
  | 0x2D => dec2D w
  | 0x30 => dec30 w
  | 0x31 => dec30 w
  | 0x32 => dec32 w
  | 0x33 => dec32 w
  | 0x34 => dec34 w
  | 0x35 => dec35 w
  | 0x38 => dec38 w
  | 0x39 => dec39 w
  | 0x3C => dec3C w
  | 0x3E => dec3E w
  | _ => none

/-- The decoder (R58, R72 to R75): a selector outside its limits makes the word no instruction, and comes before a
reserved bit. -/
def decode (w : W32) : Decoded :=
  match decMajor w with
  | none => .illegal
  | some (bad, i) =>
    if !i.selectorOk then .illegal else if bad || !i.reservedOk then .reserved i else .ok i

/-- What the host asks of the decoder: the instruction of a table word (one word of 32 bits, R58). -/
def decodeTableWord (nbits w : Nat) : Option Instr :=
  if nbits = 32 then
    match decode (BitVec.ofNat 32 w) with
    | .ok i => some i
    | _ => none
  else none

/-! The encoder. Packers of the formats of R61, most significant field first; reserved fields are zero. -/

def packA (op : BitVec 6) (g : BitVec 4) (d a b : BitVec 6) (fn : BitVec 4) : W32 := op ++ g ++ d ++ a ++ b ++ fn
def packI (op : BitVec 6) (g : BitVec 4) (d a : BitVec 6) (i : BitVec 10) : W32 := op ++ g ++ d ++ a ++ i
def packM (op : BitVec 6) (g : BitVec 4) (d a : BitVec 6) (k : BitVec 3) (o : BitVec 7) : W32 :=
  op ++ g ++ d ++ a ++ k ++ o
def packC (op : BitVec 6) (g : BitVec 4) (pd pe : BitVec 3) (a b : BitVec 6) (cc : BitVec 4) : W32 :=
  op ++ g ++ pd ++ pe ++ a ++ b ++ cc
def packQ (op : BitVec 6) (g : BitVec 4) (pd pa pb : BitVec 3) (fn : BitVec 4) : W32 :=
  op ++ g ++ pd ++ 0#6 ++ pa ++ 0#3 ++ pb ++ fn
def packB (op : BitVec 6) (g : BitVec 4) (o : BitVec 22) : W32 := op ++ g ++ o
def packV (op : BitVec 6) (g : BitVec 4) (d a b : BitVec 5) (t : BitVec 2) (fn : BitVec 5) : W32 :=
  op ++ g ++ d ++ a ++ b ++ t ++ fn
def packVX (op : BitVec 6) (g : BitVec 4) (s : BitVec 6) (v : BitVec 5) (t : BitVec 2) (fn : BitVec 5) : W32 :=
  op ++ g ++ s ++ v ++ 0#4 ++ t ++ fn
def packVC (op : BitVec 6) (g : BitVec 4) (d a : BitVec 5) (f : BitVec 6) (p : BitVec 2) (fn : BitVec 4) : W32 :=
  op ++ g ++ d ++ a ++ f ++ p ++ fn
def packVM (op : BitVec 6) (g : BitVec 4) (d : BitVec 5) (a b : BitVec 6) (fn : BitVec 4) : W32 :=
  op ++ g ++ d ++ 0#1 ++ a ++ b ++ fn
def packN (op : BitVec 6) (g : BitVec 4) (t a : BitVec 6) (dir : BitVec 2) (ctx : BitVec 4) (v : BitVec 1)
    (fn : BitVec 3) : W32 := op ++ g ++ t ++ a ++ dir ++ ctx ++ v ++ fn
def packP (op : BitVec 6) (p : BitVec 26) : W32 := op ++ p

/-- The word of an instruction; 0 for an event, which has none. -/
def encode : Instr → W32
  | .imm p => packP 0x00#6 p
  | .onnr o => packP 0x01#6 o
  | .hint u l k => packP 0x02#6 (0#17 ++ u ++ l ++ k ++ 0#3)
  | .mod m s c => packP 0x03#6 (0#18 ++ m ++ s ++ c ++ 0#2)
  | .nop => packA 0x04#6 15#4 0#6 0#6 0#6 0#4
  | .add g d a b => packA 0x04#6 g d a b 0#4
  | .sub g d a b => packA 0x04#6 g d a b 1#4
  | .mul g d a b => packA 0x04#6 g d a b 2#4
  | .mulh g d a b => packA 0x04#6 g d a b 3#4
  | .mulhu g d a b => packA 0x04#6 g d a b 4#4
  | .div g d a b => packA 0x04#6 g d a b 5#4
  | .divu g d a b => packA 0x04#6 g d a b 6#4
  | .rem g d a b => packA 0x04#6 g d a b 7#4
  | .remu g d a b => packA 0x04#6 g d a b 8#4
  | .and g d a b => packA 0x04#6 g d a b 9#4
  | .or g d a b => packA 0x04#6 g d a b 10#4
  | .xor g d a b => packA 0x04#6 g d a b 11#4
  | .shl g d a b => packA 0x04#6 g d a b 12#4
  | .shr g d a b => packA 0x04#6 g d a b 13#4
  | .sar g d a b => packA 0x04#6 g d a b 14#4
  | .rot g d a b => packA 0x04#6 g d a b 15#4
  | .min g d a b => packA 0x05#6 g d a b 0#4
  | .max g d a b => packA 0x05#6 g d a b 1#4
  | .minu g d a b => packA 0x05#6 g d a b 2#4
  | .maxu g d a b => packA 0x05#6 g d a b 3#4
  | .clz g d a => packA 0x05#6 g d a 0#6 4#4
  | .ctz g d a => packA 0x05#6 g d a 0#6 5#4
  | .popc g d a => packA 0x05#6 g d a 0#6 6#4
  | .mov g d a => packA 0x05#6 g d a 0#6 7#4
  | .ext g d a b => packA 0x05#6 g d a b 8#4
  | .extS g d a b => packA 0x05#6 g d a b 9#4
  | .ins g d a b => packA 0x05#6 g d a b 10#4
  | .lea g d a b s => packA 0x05#6 g d a b (3#2 ++ s)
  | .sel g d a b n q => packA 0x06#6 g d a b (n ++ q)
  | .addi g d a i => packI 0x07#6 g d a i
  | .movi g d i => packI 0x07#6 g d 0#6 i
  | .andi g d a i => packI 0x08#6 g d a i
  | .ori g d a i => packI 0x09#6 g d a i
  | .xori g d a i => packI 0x0A#6 g d a i
  | .shli g d a n => packI 0x0B#6 g d a (0#4 ++ n)
  | .shri g d a n => packI 0x0B#6 g d a (4#4 ++ n)
  | .sari g d a n => packI 0x0B#6 g d a (8#4 ++ n)
  | .cmp g p e a b c => packC 0x0C#6 g p e a b c
  | .cmpi g p e a i c => packC 0x0D#6 g p e a i c
  | .pand g d a b => packQ 0x0E#6 g d a b 0#4
  | .por g d a b => packQ 0x0E#6 g d a b 1#4
  | .pxor g d a b => packQ 0x0E#6 g d a b 2#4
  | .pnot g d a => packQ 0x0E#6 g d a 0#3 3#4
  | .br g o => packB 0x10#6 g o
  | .jmp o => packB 0x10#6 7#4 o
  | .call g o => packB 0x11#6 g o
  | .loop g d i => packI 0x12#6 g d 0#6 i
  | .jmpr g a => packA 0x13#6 g 0#6 a 0#6 0#4
  | .callr g a => packA 0x13#6 g 0#6 a 0#6 1#4
  | .ret g a => packA 0x13#6 g 0#6 a 0#6 2#4
  | .jseg g a => packA 0x13#6 g 0#6 a 0#6 3#4
  | .yield g => packA 0x13#6 g 0#6 0#6 0#6 4#4
  | .parkGe g a b => packA 0x13#6 g 0#6 a b 5#4
  | .parkNbS g n => packA 0x13#6 g n 0#6 0#6 6#4
  | .parkNbV g n => packA 0x13#6 g (n ++ 0#1) 0#6 0#6 7#4
  | .parkWatch g a => packA 0x13#6 g 0#6 a 0#6 8#4
  | .exit g => packA 0x13#6 g 0#6 0#6 0#6 9#4
  | .vadd g d a b => packV 0x14#6 g d a b 0#2 0#5
  | .vsub g d a b => packV 0x14#6 g d a b 0#2 1#5
  | .vmul g d a b => packV 0x14#6 g d a b 0#2 2#5
  | .vmad g d a b => packV 0x14#6 g d a b 0#2 3#5
  | .vand g d a b => packV 0x14#6 g d a b 0#2 4#5
  | .vor g d a b => packV 0x14#6 g d a b 0#2 5#5
  | .vxor g d a b => packV 0x14#6 g d a b 0#2 6#5
  | .vshl g d a b => packV 0x14#6 g d a b 0#2 7#5
  | .vshr g d a b => packV 0x14#6 g d a b 0#2 8#5
  | .vsar g d a b => packV 0x14#6 g d a b 0#2 9#5
  | .vmin g d a b t => packV 0x14#6 g d a b (0#1 ++ t) 10#5
  | .vmax g d a b t => packV 0x14#6 g d a b (0#1 ++ t) 11#5
  | .vabs g d a => packV 0x14#6 g d a 0#5 0#2 12#5
  | .vsel g d a b => packV 0x14#6 g d a b 0#2 13#5
  | .vshuf g d a b => packV 0x14#6 g d a b 0#2 14#5
  | .vrot g d a b => packV 0x14#6 g d a b 0#2 15#5
  | .vcmp g p a b c => packV 0x14#6 g (0#2 ++ p) a b 0#2 (1#1 ++ c)
  | .vbcast g s v => packVX 0x15#6 g s v 0#2 0#5
  | .vlane g v => packVX 0x15#6 g 0#6 v 0#2 1#5
  | .vredAdd g s v => packVX 0x15#6 g s v 0#2 2#5
  | .vredAnd g s v => packVX 0x15#6 g s v 0#2 3#5
  | .vredOr g s v => packVX 0x15#6 g s v 0#2 4#5
  | .vredXor g s v => packVX 0x15#6 g s v 0#2 5#5
  | .vredMin g s v t => packVX 0x15#6 g s v (0#1 ++ t) 6#5
  | .vredMax g s v t => packVX 0x15#6 g s v (0#1 ++ t) 7#5
  | .vfredAdd g s v => packVX 0x15#6 g s v 0#2 8#5
  | .vfredMin g s v => packVX 0x15#6 g s v 0#2 9#5
  | .vfredMax g s v => packVX 0x15#6 g s v 0#2 10#5
  | .vfadd g d a b => packV 0x16#6 g d a b 0#2 0#5
  | .vfsub g d a b => packV 0x16#6 g d a b 0#2 1#5
  | .vfmul g d a b => packV 0x16#6 g d a b 0#2 2#5
  | .vfma g d a b => packV 0x16#6 g d a b 0#2 3#5
  | .vfms g d a b => packV 0x16#6 g d a b 0#2 4#5
  | .vfnma g d a b => packV 0x16#6 g d a b 0#2 5#5
  | .vfmin g d a b => packV 0x16#6 g d a b 0#2 6#5
  | .vfmax g d a b => packV 0x16#6 g d a b 0#2 7#5
  | .vfabs g d a => packV 0x16#6 g d a 0#5 0#2 8#5
  | .vfneg g d a => packV 0x16#6 g d a 0#5 0#2 9#5
  | .vfrcp g d a => packV 0x16#6 g d a 0#5 0#2 10#5
  | .vfrsq g d a => packV 0x16#6 g d a 0#5 0#2 11#5
  | .vfsqrt g d a => packV 0x16#6 g d a 0#5 0#2 12#5
  | .vfexp2 g d a => packV 0x16#6 g d a 0#5 0#2 13#5
  | .vflog2 g d a => packV 0x16#6 g d a 0#5 0#2 14#5
  | .vfclass g d a => packV 0x16#6 g d a 0#5 0#2 15#5
  | .vfcmp g p a b c => packV 0x16#6 g (0#2 ++ p) a b 0#2 (1#1 ++ c)
  | .vcvtF2x g d a f => packVC 0x17#6 g d a f 0#2 0#4
  | .vcvtX2f g d a f => packVC 0x17#6 g d a f 0#2 1#4
  | .vcvtF2i g d a => packVC 0x17#6 g d a 0#6 0#2 2#4
  | .vcvtF2u g d a => packVC 0x17#6 g d a 0#6 0#2 3#4
  | .vcvtI2f g d a => packVC 0x17#6 g d a 0#6 0#2 4#4
  | .vcvtU2f g d a => packVC 0x17#6 g d a 0#6 0#2 5#4
  | .vpack g d a f p => packVC 0x17#6 g d a f p 6#4
  | .vunpk g d a f p => packVC 0x17#6 g d a f p 7#4
  | .vfrnd g d a => packVC 0x17#6 g d a 0#6 0#2 8#4
  | .fadd g d a b => packA 0x18#6 g d a b 0#4
  | .fsub g d a b => packA 0x18#6 g d a b 1#4
  | .fmul g d a b => packA 0x18#6 g d a b 2#4
  | .ffma g d a b => packA 0x18#6 g d a b 3#4
  | .fmin g d a b => packA 0x18#6 g d a b 4#4
  | .fmax g d a b => packA 0x18#6 g d a b 5#4
  | .fcvtF2x g d a f => packA 0x18#6 g d a f 6#4
  | .fcvtX2f g d a f => packA 0x18#6 g d a f 7#4
  | .fcvtF2i g d a => packA 0x18#6 g d a 0#6 8#4
  | .fcvtF2u g d a => packA 0x18#6 g d a 0#6 9#4
  | .fcvtI2f g d a => packA 0x18#6 g d a 0#6 10#4
  | .fcvtU2f g d a => packA 0x18#6 g d a 0#6 11#4
  | .fcmp g p e a b c => packC 0x19#6 g p e a b c
  | .mxmul g d a b => packA 0x20#6 g d a b 0#4
  | .mxmuls g d a b => packA 0x20#6 g d a b 1#4
  | .mxfetch g a b => packA 0x20#6 g 0#6 a b 2#4
  | .mxprog g a b => packA 0x20#6 g 0#6 a b 3#4
  | .mxdef g => packA 0x20#6 g 0#6 0#6 0#6 4#4
  | .mxscl g a => packA 0x20#6 g 0#6 a 0#6 5#4
  | .mxrd g d a => packA 0x20#6 g d a 0#6 6#4
  | .mxwr g d a => packA 0x20#6 g d a 0#6 7#4
  | .mxzero g d => packA 0x20#6 g d 0#6 0#6 8#4
  | .mxdrain g a => packA 0x20#6 g 0#6 a 0#6 9#4
  | .mxstat g d => packA 0x20#6 g d 0#6 0#6 10#4
  | .mxclr g => packA 0x20#6 g 0#6 0#6 0#6 11#4
  | .mxcap g d a b => packA 0x20#6 g d a b 12#4
  | .mxcmd g d a => packA 0x20#6 g d a 0#6 13#4
  | .ld g d a k o => packM 0x28#6 g d a k o
  | .st g d a k o => packM 0x29#6 g d a (k ++ 0#1) o
  | .lda g d a n z o => packM 0x2A#6 g d a (n ++ z) o
  | .vld g d a o => packM 0x2B#6 g (d ++ 0#1) a 0#3 o
  | .vst g d a o => packM 0x2B#6 g (d ++ 0#1) a 1#3 o
  | .vlda g d a k o => packM 0x2B#6 g (d ++ 0#1) a k o
  | .vlds g d a b => packVM 0x2C#6 g d a b 0#4
  | .vsts g d a b => packVM 0x2C#6 g d a b 1#4
  | .vldx g d a v => packVM 0x2C#6 g d a (0#1 ++ v) 2#4
  | .vstx g d a v => packVM 0x2C#6 g d a (0#1 ++ v) 3#4
  | .ldl g d a b z => packA 0x2D#6 g d a b (0#3 ++ z)
  | .stl g d a b z => packA 0x2D#6 g d a b (1#3 ++ z)
  | .pst g d a z => packA 0x2D#6 g d a 0#6 (2#3 ++ z)
  | .pref g a => packA 0x2D#6 g 0#6 a 0#6 6#4
  | .cfetch g a s => packA 0x2D#6 g 0#6 a (0#2 ++ s) 7#4
  | .flush g a => packA 0x2D#6 g 0#6 a 0#6 8#4
  | .amo z g d a b f => packA (0b11000#5 ++ z) g d a b f
  | .red z g a b f => packA (0b11001#5 ++ z) g 0#6 a b (0#1 ++ f)
  | .tladd g s a b => packA 0x34#6 g (0#3 ++ s) a b 0#4
  | .waitge g s a b => packA 0x34#6 g (0#3 ++ s) a b 1#4
  | .waita g n => packA 0x34#6 g (0#4 ++ n) 0#6 0#6 2#4
  | .watch g m a b => packA 0x34#6 g (0#4 ++ m) a b 3#4
  | .wake g a => packA 0x34#6 g 0#6 a 0#6 4#4
  | .bara g d a b => packA 0x34#6 g d a b 5#4
  | .barw g a b => packA 0x34#6 g 0#6 a b 6#4
  | .cpset g a r => packA 0x35#6 g 0#6 a 0#6 (0#1 ++ r)
  | .cpgo g d => packA 0x35#6 g d 0#6 0#6 8#4
  | .cppb g d a => packA 0x35#6 g d a 0#6 9#4
  | .cpq g d a => packA 0x35#6 g d a 0#6 10#4
  | .nput g t a d c v => packN 0x38#6 g t a d c v 0#3
  | .ntake g t a v => packN 0x38#6 g t a 0#2 0#4 v 1#3
  | .send g a b => packA 0x39#6 g 0#6 a b 0#4
  | .recv g d c => packA 0x39#6 g d 0#6 (0#4 ++ c) 1#4
  | .recvPark g c => packA 0x39#6 g 0#6 0#6 (0#4 ++ c) 2#4
  | .pipeput g a b => packA 0x39#6 g 0#6 a b 3#4
  | .pipeget g d a => packA 0x39#6 g d a 0#6 4#4
  | .susp g a b => packA 0x39#6 g 0#6 a b 5#4
  | .taskpop g => packA 0x39#6 g 0#6 0#6 0#6 6#4
  | .taskpush g b => packA 0x39#6 g 0#6 0#6 b 7#4
  | .launch g a b => packA 0x39#6 g 0#6 a b 8#4
  | .sysc g d => packA 0x39#6 g d 0#6 0#6 9#4
  | .syscNb g a b => packA 0x39#6 g 0#6 a b 10#4
  | .jrnl g d a => packA 0x39#6 g d a 0#6 11#4
  | .relst g d a s z => packA 0x3C#6 g d a (s ++ z ++ 0#2) 0#4
  | .acqld g d a s z => packA 0x3C#6 g d a (s ++ z ++ 0#2) 1#4
  | .fence g s => packA 0x3C#6 g 0#6 0#6 (s ++ 0#3) 2#4
  | .trap g c => packA 0x3E#6 g 0#6 c 0#6 0#4
  | .tret g => packA 0x3E#6 g 0#6 0#6 0#6 1#4
  | .movc g d c => packA 0x3E#6 g d c 0#6 2#4
  | .movcw g c b => packA 0x3E#6 g 0#6 c b 3#4
  | .sprint g a b => packA 0x3E#6 g 0#6 a b 4#4
  | .unsprint g => packA 0x3E#6 g 0#6 0#6 0#6 5#4
  | .dbgbrk g => packA 0x3E#6 g 0#6 0#6 0#6 6#4
  | .wspsw g a b => packA 0x3E#6 g 0#6 a b 7#4
  | .tlbinv g a b => packA 0x3E#6 g 0#6 a b 8#4
  | .cultld g a b => packA 0x3E#6 g 0#6 a b 9#4
  | .rangeset g a b => packA 0x3E#6 g 0#6 a b 10#4
  | .illegalInstruction _ w => w
  | _ => 0

end Sys2Proof
end

