-- ==== Sys2Proof/Machine/State.lean ====
section
/-!
DEFINITION. The state of the Twija Gheind as plain data: everything INVENTORY.md lists under State. Registers that
the manual places in workspace bytes (R80) are not held twice: they are bytes of memory, read and written through
Machine/Access.lean.
-/

namespace Sys2Proof.Machine

/-- The states of a context (R25). -/
inductive CtxState where
  | free | ready | held | parked | away | stopped
  deriving DecidableEq, Repr

/-- The park descriptor of a context (text before R114): form, address or register, target. -/
inductive Park where
  | none
  | ge (addr target : W64) (unread : Bool)
  | nb (bit : Nat)
  | watch (addr : W64)
  | recv (ch : Nat)
  deriving DecidableEq, Repr

/-- An asynchronous cause waiting for its context (R334). -/
structure Pend where
  cause : BitVec 6
  tval  : W64
  deriving DecidableEq, Repr

/-- The attributes a page or a local-window entry gives its bytes (R193, R262). -/
structure Attr where
  ord : Nat
  sh  : Bool
  cmp : Bool
  g   : Nat
  fmt : BitVec 6
  deriving DecidableEq, Repr

/-- A run of bytes at consecutive physical addresses, with the virtual address of the first. -/
structure Seg where
  pa    : Nat
  va    : Nat
  bytes : List Byte
  deriving DecidableEq, Repr

/-- What an accepted store of a context is (R211, R223, R237). -/
inductive StoreKind where
  | plain
  | release (scope : Nat)
  deriving DecidableEq, Repr

/-- A store a context has accepted and not yet performed (R211, R230), or its part on pages of one kind (R229). -/
structure PendStore where
  kind : StoreKind
  ord  : Nat
  cache : Nat                     -- its MOD.CACHE (R71): 3 writes its bytes without a fill (R263)
  more  : Bool                    -- the next in the list is a later part of the same scatter (R216)
  cmps  : List Nat                -- its lines that their pages allow to compress (R193, R199)
  vf   : Nat
  segs : List Seg
  deriving DecidableEq, Repr

/-- How one lane of a vector access reads its element (R128). -/
structure Elem where
  lane  : Nat
  pa    : Nat
  va    : Nat
  attr  : Attr
  scale : Option (Nat × Nat)     -- physical and virtual address of the scale byte
  deriving DecidableEq, Repr

/-- An LDA or VLDA in flight (R212, R214): its landing writes register `dst` of the workspace at `ws`. -/
structure Lda where
  vec   : Bool
  dbl   : Bool
  dst   : Nat
  ctr   : Nat
  ws    : Nat
  va    : Nat
  ord   : Nat
  rm    : Nat                     -- ROUND.RM at issue (R131)
  bytes : List (Nat × Nat)        -- scalar: physical address and count of each part
  elems : List Elem
  cache : Nat                     -- its MOD.CACHE (R71)
  own   : Map (Option Byte)       -- bytes of its own workspace as read at issue, `none` for a poisoned one (R82)
  old   : Map Byte                -- bytes it reads that others have overwritten since, as they were (R130)
  deriving DecidableEq, Repr

/-- A neighbour write reserved at its target and not yet landed (R85, R86). -/
structure NputIn where
  bit   : Nat
  ws    : Nat
  bytes : List Byte
  scope : Nat                     -- the scope of its release (R86), at which NTAKE acquires (R87)
  deriving DecidableEq, Repr

/-- FLUSH, CULTLD, RANGESET and TLBINV accepted and not yet performed (R221, R272). -/
inductive CtxOp where
  | flush (line vf ord : Nat)
  | cultld (slot : Nat) (bytes : List (Nat × Nat)) (live : Bool)
  | rangeset (entry : Nat) (w0 w1 : W64)
  | tlbinv (vf : Nat) (all flip note : Bool) (va : W64) (frame : Option (Nat × Nat))
  deriving DecidableEq, Repr

/-- The landing reservation of a context (R40). -/
structure Reservation where
  pc     : PCVal
  lines  : List Nat
  cycles : Nat
  deriving DecidableEq, Repr

/-- The retry sequence a context is in (R41): the instruction's PC, operands and immediate, I-class outcomes in a row. -/
structure Retry where
  pc     : PCVal
  values : List W64
  imms   : List (BitVec 26)
  count  : Nat
  branch : Bool
  deriving DecidableEq, Repr

/-- The eight copy shadow registers (R288). -/
structure Shadow where
  src : W64
  dst : W64
  bytes : W64
  rows : W64
  srcStride : W64
  dstStride : W64
  counter : W64
  mode : W64
  deriving DecidableEq, Repr

/-- A hardware context (R23, R25): everything of it that its workspace does not hold. -/
structure Ctx where
  st        : CtxState
  prior     : CtxState            -- where a STOPPED context returns
  stopDebug : Bool
  stopGang  : Bool
  stopTrap  : Bool                -- stopped by a trap raised in its handler (R335)
  migrate   : Bool                -- stopped in a trap: its release sets PRIV and the handler's PC (R339)
  pc        : PCVal               -- its PC; while AWAY, the PC of its handler (R372)
  wsp       : W32
  chain     : List Instr          -- prefixes issued whose target has not issued (R65), oldest first
  lastIssue : Int
  yielded   : Bool
  lost      : Nat                 -- turns the instruction in play has lost to bank conflicts (R27, R84)
  owed      : Option (List Nat)   -- banks of the reads it has not yet won, once it has lost a turn (R84)
  age       : Nat                 -- the quad's cycle in which it first issued (R84)
  kept      : List (Nat × Nat)    -- registers kept for the next instruction (HINT.REUSE, R70): offset, size
  park      : Park
  shadow    : Shadow
  pend      : List Pend
  hold      : Option Nat          -- cycles this hold has lasted (R39)
  resv      : Option Reservation
  resvLost  : Bool                -- a reservation was dropped (code 0x47, R40)
  retry     : Option Retry
  task      : Option (PCVal × W64)   -- the task being run (R322)
  ldas      : List Lda
  stores    : List PendStore      -- oldest first
  nputs     : List NputIn
  ops       : List CtxOp
  past      : Map Byte            -- bytes that others have overwritten since its last instruction, as they were (R130)
  deriving DecidableEq, Repr

/-- States of a code segment slot (R196). -/
inductive SlotState where
  | empty | filling | landed
  deriving DecidableEq, Repr

/-- A code segment slot: words and poisoned words by number (R196, R204). -/
structure Slot where
  state  : SlotState
  sva    : W64
  vf     : Nat
  frame  : Nat                    -- physical address the fill reads
  words  : Map W32
  poison : List Nat
  deriving DecidableEq, Repr

/-- A flit: payload, tag (ANY in bit 4, or a context), and the core that sent it (R312). -/
structure Flit where
  payload : W64
  tag     : Nat
  sender  : Nat
  scope   : Nat                   -- the scope of its release, at which RECV acquires (R234, R314)
  deriving DecidableEq, Repr

/-- A mesh receive channel: flits arrived, and flits accepted and still in flight or fallen out (R312, R341). -/
structure Chan where
  flits   : List Flit
  flight  : List Flit
  deriving DecidableEq, Repr

/-- The missing sectors of a faulting page of a copy (R294): page, cause, bitmap of its 64-byte sectors. -/
structure Missing where
  page  : Nat
  cause : BitVec 6
  sect  : Nat
  deriving DecidableEq, Repr

/-- A copy in flight (R292 to R295). -/
structure Copy where
  ctx     : Nat
  live    : Bool                  -- the context that started it has not executed EXIT
  hoop    : Option Nat
  vf      : Nat
  tag     : W64
  serial  : Nat
  regs    : Shadow
  promise : W64
  moved   : Bool                  -- its bytes are written
  done    : Nat                   -- bytes written
  faulted : Bool                  -- a sector faulted
  missing : List Missing          -- faulting pages not yet recorded
  recorded : Bool                 -- a fault record has been written for it
  added   : Bool                  -- its counter add is performed, and its slot free; records are still to be written (R348)
  late    : Bool
  order   : Nat                   -- order of CPGO and CPPB in the package
  deriving DecidableEq, Repr

/-- States of a journal entry (R327). -/
inductive JState where
  | free | pending | refused
  deriving DecidableEq, Repr

/-- A posted-store journal entry (R327, R328). -/
structure JEntry where
  state : JState
  cause : BitVec 6
  owner : Nat
  priv  : Bool                    -- a handler's (R81)
  dbl   : Bool
  va    : W64
  vf    : Nat
  ord   : Nat
  segs  : List Seg
  order : Nat
  deriving DecidableEq, Repr

/-- A cached translation (R202): the page's virtual base and size, its VF, frame, permissions and attributes. -/
structure TlbEntry where
  vf    : Nat
  base  : Nat
  size  : Nat
  frame : Nat
  host  : Bool
  tr    : Bool
  r     : Bool
  w     : Bool
  x     : Bool
  vft   : Nat
  attr  : Attr
  deriving DecidableEq, Repr

/-- A line in an L1 (R197). -/
structure L1Line where
  line  : Nat
  dirty : Bool
  deriving DecidableEq, Repr

/-- A line in an L2 slice (R199): compressed to half a slot or not, and whether its page allows that (R193). -/
structure L2Line where
  line  : Nat
  dirty : Bool
  half  : Bool
  cmp   : Bool
  vf    : Nat                     -- whose access dirtied it, for the charge of its write-back (R303)
  deriving DecidableEq, Repr

/-- A compute core. -/
structure Core where
  ctxs    : Map Ctx
  last    : Nat
  cyc     : Nat
  hoopO   : W32
  hoopS   : W32
  hoop    : Option Nat
  slots   : Map Slot
  chans   : Map Chan
  copies  : Map Copy
  serial  : Nat
  journal : Map JEntry
  gens    : Map W32
  tlb     : List TlbEntry
  l1      : List L1Line           -- latest fill first
  fills   : List Nat              -- lines asked for by PREF (R219)
  deriving DecidableEq, Repr

/-- A matrix operand as captured (R167, R168): where its rows begin, and for each virtual 4 KiB page of it the frame
and, under a scale shadow, the physical address of the scale of the page's first byte. -/
structure Operand where
  slot   : Option Nat
  last   : Bool
  va     : Nat
  stride : Nat
  attr   : Attr
  pages  : Map Nat
  scales : Map Nat
  deriving DecidableEq, Repr

/-- The inner-loop buffer (R177). -/
structure Program where
  steps : W64
  const : W32
  len   : Nat
  deriving DecidableEq, Repr

/-- The captured window (R166). -/
structure Window where
  row0 : Nat
  m    : Nat
  n    : Nat
  k    : Nat
  sc   : Nat
  deriving DecidableEq, Repr

/-- What an accepted matrix operation does (R173, R175). -/
inductive MxKind where
  | mul | muls | rd | wr | zero
  deriving DecidableEq, Repr

/-- Who asked for a matrix operation: a context, a context that has executed EXIT since, or a command with its
counter (R180, R183). -/
inductive MxSource where
  | ctx (core ctx : Nat)
  | gone (core ctx : Nat)
  | command (counter : W64)
  deriving DecidableEq, Repr

/-- A matrix operation accepted and not finished (R164, R173, R174). -/
structure MxOp where
  kind   : MxKind
  win    : Window
  a      : Option Operand
  b      : Option Operand
  sc     : W64                    -- the captured MXSC value
  rm     : Nat
  prog   : Option Program
  source : MxSource
  vf     : Nat
  tag    : W64
  old    : Map Byte               -- operand bytes overwritten since it was issued, as they were (R170)
  deriving DecidableEq, Repr

/-- A matrix command on its way or in an inbox (R183). -/
structure MxCommand where
  token  : W64
  vf     : Nat
  tag    : W64
  core   : Nat
  ctx    : Nat
  hoop   : Option Nat             -- its sender's hoop
  live   : Bool                   -- its sender has not executed EXIT
  word   : W64
  w      : W64
  a      : W64
  b      : W64
  sc     : W64
  rm     : Nat
  deriving DecidableEq, Repr

/-- A fetch slot (R171, R172). -/
structure FetchSlot where
  addr    : W64
  desc    : W64
  attr    : Attr
  pages   : Map Nat
  scales  : Map Nat
  filled  : Bool
  closing : Bool
  pinned  : Bool                  -- its lines are pinned: not between a gang switch and the resume (R184)
  deriving DecidableEq, Repr

/-- A capability (R182). -/
structure Capability where
  gvf    : Nat
  row0   : Nat
  rows   : Nat
  expiry : W64
  chk    : BitVec 43
  deriving DecidableEq, Repr

/-- The holder of a lease (R357). -/
structure Holder where
  core : Nat
  ctx  : Nat
  hoop : Nat
  deriving DecidableEq, Repr

/-- A quad. -/
structure Quad where
  vf      : Nat
  part    : Option Nat
  lease   : W64
  leaseEnd : W64
  holder  : Option Holder
  acc2    : Nat                   -- lease accumulator, 2^-10 uJ (R356)
  used    : Nat                   -- lease energy used, 2^-10 uJ
  paid    : Nat                   -- lease energy of this tick that ENERGY has, 2^-10 uJ (R356)
  fduty   : Nat
  point   : Nat
  rise    : Option (Nat × Nat)    -- a point waiting for the rail, and the reason of the change (R355, R361)
  active  : Bool                  -- a context READY or HELD, or a row group owned, since the last tick (R352)
  idle    : Bool                  -- none of that in the whole tick before the last (R352)
  accMem  : Map W32               -- element 128 r + c
  accPoison : List Nat            -- poisoned 8-byte words: element / 2 (R204)
  ops     : List MxOp
  slots   : Map FetchSlot
  prog    : Option Program
  status  : W64
  thresh  : W64
  caps    : Map Capability
  inbox   : List MxCommand
  fused   : Bool
  attrs   : Map W64
  counts  : Map W64               -- configuration-page counters by offset (R301)
  given   : Map Nat               -- presence bits that an NPUT set, by 8 x byte address + bit: its scope (R87)
  cycle   : Nat                   -- issue cycles of the quad (R84)
  round   : List Nat              -- cores that have had their issue cycle in this one
  grants  : List Nat              -- banks granted in this cycle
  booked  : List Nat              -- banks that a handler takes in the next one (R401)
  tied    : Bool                  -- in this cycle a local instruction has taken free groups of the inbox head (R165)
  ties    : Nat                   -- cycles in a row in which the inbox head has lost them (R165)
  spares  : Nat
  testing : List Nat              -- banks whose self-test runs (R205)
  retired : List Nat
  deriving DecidableEq, Repr

/-- Phases of a tile's rail (R355). -/
inductive RailPhase where
  | steady | rise | hold | descent
  deriving DecidableEq, Repr

/-- A tile: the service core's rotation, the shared TLB, the rail, the pins, the L2 slice. -/
structure Tile where
  away    : List (Nat × Nat)      -- contexts AWAY, in order of arrival; the first 16 run (R335)
  last    : Nat
  cyc     : Nat
  issued  : Map Int               -- last issue of position j of the rotation
  tlb     : List TlbEntry
  railMv  : Nat
  phase   : RailPhase
  holdEnd : Nat
  stepAt  : Nat                   -- when the last 10 mV step was made (R355)
  pinBusy : Nat                   -- pinned bytes whose release is in progress (R171)
  gated   : Bool                  -- the participant has reported itself gated (R279)
  l2      : List L2Line           -- latest fill first
  blocks  : List Nat              -- lines of which the transfer unit's parameter-block cache holds the block (R280)
  deriving DecidableEq, Repr

/-- Where a launch packet came from (R377): port, SEQ, scheduler, and its place in the order of arrival. -/
structure Packet where
  port      : Nat
  seq       : Nat
  scheduler : Nat
  arrival   : Nat
  deriving DecidableEq, Repr

/-- A queued launch record (R48), and whether it resumes a stopped hoop (R54). -/
structure Launch where
  code  : W64
  entry : Nat
  nctx  : Nat
  flags : Nat
  ox    : Nat
  oy    : Nat
  w     : Nat
  h     : Nat
  args  : W64
  map   : W64
  done  : W64
  vf    : Nat
  queue : Nat
  tag   : W64
  packet : Option Packet          -- for its residency reports (R377)
  hoop  : Option Nat
  deriving DecidableEq, Repr

/-- A launch queue (R52, R53, R323). -/
structure LQueue where
  weight  : Nat
  slice   : Nat
  deficit : Int
  rest    : Nat                   -- remainder of lease energy charged (R356), in thirds of 2^-10 uJ
  records : List Launch
  held    : List (Nat × Launch)   -- held records, with window line or 64 for a packet, in arrival order
  deriving DecidableEq, Repr

/-- A continuation record (R318). -/
structure Cont where
  pc     : PCVal
  mask   : W64
  values : List W64
  deriving DecidableEq, Repr

/-- States of a hoop. -/
inductive HoopState where
  | placed      -- cores taken, segment 0 not landed everywhere
  | running
  | ending      -- last EXIT done; copies or DONE remain (R50)
  | switched    -- stopped by a gang switch and saved, or being saved
  deriving DecidableEq, Repr

/-- A hoop (R29, R50, R318). -/
structure Hoop where
  state    : HoopState
  record      : Launch
  ox       : Nat
  oy       : Nat
  pushed   : List Nat              -- places in its region of the task area, in push order (R318, R374)
  reserved : Nat
  frozen   : Bool
  slice    : Nat                  -- its slice in ns, as the dispatch took it (R375)
  sliceEnd : Nat
  doneDue  : Bool
  dbg      : Bool                 -- a debugger is attached (R339)
  frozenDbg : Bool                -- frozen by the debugger
  crossed  : List Cont            -- targets crossed while stopped, pushed at resume (R331)
  records  : List (Cont × Bool)   -- its queue's records while a slice expiry keeps it stopped, in push order, and
                                  -- whether each was poisoned (R204, R331)
  deriving DecidableEq, Repr

/-- A continuation handed to the hub (R319): before or after its registration. -/
structure Susp where
  hoop       : Nat
  core       : Nat
  vf         : Nat
  record        : Cont
  counter    : W64
  target     : W64
  registered : Option Nat         -- physical address of the counter, once registered
  deriving DecidableEq, Repr

/-- Who waits on a wait-and-wake entry (R277). -/
inductive Waiter where
  | ctx (core ctx : Nat)
  | host (token : Nat)
  deriving DecidableEq, Repr

/-- A wait-and-wake entry in use (R277): V = 1. -/
structure WaitEntry where
  latch  : Bool
  mode   : Nat
  va     : Nat
  target : W64
  vf     : Nat
  waiter : Waiter
  hoop   : Option Nat             -- the hoop of a waiting context (R342)
  loc    : Bool
  quad   : Nat
  asked  : Nat                    -- the address WATCH named (R116)
  deriving DecidableEq, Repr

/-- A ring (R324): the records the hub holds for it while it is full. -/
structure Ring where
  held : List (List Byte)
  deriving DecidableEq, Repr

/-- States of a culture slot (R271). -/
inductive CultState where
  | empty | loading | loaded
  deriving DecidableEq, Repr

/-- A culture slot (R257, R265): state words and action words of a loaded image, action (s, e) at 16 s + e. -/
structure Culture where
  state  : CultState
  owner  : Nat
  ns     : Nat
  name   : W64
  states : Map (BitVec 16)
  actions : Map W32
  deriving DecidableEq, Repr

/-- A range-table entry with the VF the hypervisor assigned it to (R270). -/
structure RangeEntry where
  w0   : W64
  w1   : W64
  vf   : Option Nat
  next : Option (W64 × W64)       -- the words a RANGESET not yet performed brings (R274)
  moved : List Nat                -- lines that have taken the new words' culture already
  deriving DecidableEq, Repr

/-- A line's directory entry and side store at its home (R257). -/
structure DirEntry where
  slot    : Nat
  state   : Nat
  sharers : List Nat              -- 0-47 L2 slices, 48 the hub's CXL side
  owner   : Option Nat
  sealed  : Bool                  -- WONCE: the first write has sealed the line (R267)
  requester : Option Nat          -- whose request entered the wait
  wait    : List Nat              -- participants whose acknowledgement is awaited
  dataDue : Bool                  -- DATA is awaited: an RCL or FWD is not answered (R263, R266 check 7)
  drops   : List Nat              -- of those whose answer is awaited, who loses the line by it: INV and RCL, not UPD (R264)
  sent    : Map (Nat × Nat)       -- of a message of the wait: when it was last sent, and how often again (R279)
  words   : Map Nat               -- WOWN: word of the line, registrant (R267)
  masks   : Map Nat               -- BMASK: participant, the bytes of its private copy as a mask (R267)
  reds    : List Nat              -- RED: participants that hold a private buffer (R257, R267)
  partials : List Nat             -- WOWN: participants whose copy an ACQ has left only their registered words (R267)
  deriving DecidableEq, Repr

/-- The release tag of a line (R255). -/
structure RelTag where
  scope : Nat
  core  : Nat
  ctx   : Nat
  hoop  : Option Nat              -- the releaser's hoop and VF
  vf    : Nat
  va    : Nat
  bytes : List Nat                -- physical addresses of the tagged bytes
  gone  : Option W64              -- the TAG of its hoop, when the context has executed EXIT
  deriving DecidableEq, Repr

/-- A VF as configured (R372). -/
structure VfState where
  record    : VfRecord
  sprint : Bool                   -- SPR as the last tick took it (R375)
  seq    : W32                    -- SEQ of its next fault-queue record (R325)
  fault  : Ring
  host   : Ring
  report : Nat                    -- report number
  scFrames : Map Nat              -- pinned frames of the system-call area, by 4 KiB page of it (R329)
  deriving DecidableEq, Repr

/-- Steps of a gang switch (R341). -/
inductive GangPhase where
  | requested | stopped | saved | restoring | failed
  deriving DecidableEq, Repr

/-- A gang switch of a partition, or of one hoop of it at a slice expiry (R341, R342). -/
structure Gang where
  phase  : GangPhase
  time   : Nat
  needed : List Nat
  hoops  : List Nat
  slice  : Option Nat             -- the hoop of a slice-expiry switch (R54)
  start  : Nat                    -- T, when the contexts stopped
  seq    : W32
  quads  : Map Quad               -- saved quads: what the device keeps in an encoding of its own (R343)
  cores  : Map Core               -- cores of the saved quads, likewise
  image  : List Host.Cell         -- on the shelf: what the save area held for it (log 31)
  marks  : List Nat               -- and the poison marks of these bytes
  deriving DecidableEq, Repr

/-- A partition as configured (R373). -/
structure PartState where
  record    : PartRecord
  ceil   : Nat                    -- CEIL as the last tick took it (R375)
  served : Option Nat             -- last_served (R52)
  seq    : W32                    -- save number
  event  : Ring
  gang   : Option Gang
  shelf  : List Gang              -- slice switches saved, whose area a later switch has taken (R54; log 31)
  deriving DecidableEq, Repr

/-- A VF's register page (R368). -/
structure RegPage where
  nonce    : BitVec 384
  done     : Bool
  hwatch   : List W64
  hwstat   : Bool
  consumed : Map W64
  report   : List Byte
  deriving DecidableEq, Repr

/-- A report request the controller has taken (R381). -/
structure ReportReq where
  vf    : Nat
  dest  : Nat                     -- the register page the report goes to, or 1000 + port
  nonce : Option (BitVec 384)     -- given by a link, or read from the page when the controller began
  deriving DecidableEq, Repr

/-- The six usage counters of a VF (R303), ENERGY and SPRINTE with remainders in 2^-10 uJ; CTXCYC too as the last tick
found it, which the sharing of energy needs. -/
structure Usage where
  ctxcyc  : Nat
  mxops   : Nat
  hbmb    : Nat
  linkb   : Nat
  energy  : Nat
  sprinte : Nat
  seen    : Nat
  deriving DecidableEq, Repr

/-- What the device sends to the world outside it. -/
inductive Message where
  /-- MSI-X vector of a VF (R369) -/
  | msi (vf vector : Nat)
  /-- a CXL completion with data, or an error completion (R268, R269, R365) -/
  | cxl (data : BitVec 512) (error : Bool)
  /-- a CXL retry (R264) -/
  | cxlRetry
  /-- a residency report on a port (R377) -/
  | residency (port seq status cause vf time : Nat) (tag : W64)
  /-- the answer to a link memory operation: data, or a transport error (R376) -/
  | link (port : Nat) (data : W64) (error : Bool)
  /-- a usage report on a link (R381) -/
  | report (port : Nat) (bytes : List Byte)
  /-- a unit reported as failed to the hypervisor (R205, R279) -/
  | failed (quad : Nat)
  /-- a configuration the controller refused (R372, R373, R375) -/
  | refused (what : Nat)
  deriving DecidableEq, Repr

/-- A scope-miss message on its way (R255). -/
structure ScopeMiss where
  core : Nat
  ctx  : Nat
  hoop : Option Nat
  vf   : Nat
  va   : W64
  gone : Option W64               -- as in the tag
  deriving DecidableEq, Repr

/-- A page walk in flight (R21, R202). -/
structure WalkReq where
  core : Nat
  vf   : Nat
  page : Nat                      -- its 4 KiB virtual page
  deriving DecidableEq, Repr

/-- An upper-level entry that the hub's walkers hold (R187): the table that the walk of the addresses with one prefix
goes on from. -/
structure WalkEntry where
  vf    : Nat
  low   : Nat                     -- lowest VA bit of the prefix
  index : Nat                     -- the prefix
  table : Nat
  deriving DecidableEq, Repr

/-- The hub, the home agents and the Quinrak controller. -/
structure Hub where
  now      : Nat                  -- the hub's nanosecond count (R16)
  vat      : Nat                  -- Q, the heat of the vat, in units of 24 kJ / 2^24 (R349, R350)
  ticked   : Nat                  -- the time of the last tick of the budget (R350)
  meltRfz  : Bool
  revoked  : Bool                 -- the last tick's FRAC stood at or above the revocation mark (R351)
  charged  : Nat                  -- the time of the last charge of deficits (R52)
  leaseId  : Nat                  -- next lease id
  parts    : Map PartState
  vfs      : Map VfState
  queues   : Map LQueue           -- queue q of VF v at 8 v + q
  hoops    : Map Hoop
  hoopNext : Nat
  susps    : List Susp
  waits    : List WaitEntry
  cultures : Map Culture
  ranges   : Map RangeEntry
  dir      : Map DirEntry
  tags     : Map RelTag
  window   : Map (BitVec 512)     -- launch window line by number 512 v + 64 q + i (R366)
  pages    : Map RegPage
  usage    : Map Usage
  reports  : List ReportReq
  misses   : List ScopeMiss
  commands : List MxCommand       -- matrix commands in the mesh
  returns  : List MxCommand       -- refusals on their way back
  out      : List Message         -- newest first
  walks    : List WalkReq
  walkCache : List WalkEntry
  testing  : List TestUnit        -- other memories than local banks whose self-test runs (R205)
  order    : Nat                  -- order of copies and posted stores of the package
  firmware : Nat                  -- version running
  staged   : Option Nat
  rollback : Nat
  started  : Bool
  deriving DecidableEq, Repr

/-- The context an instruction issues from. -/
structure Cursor where
  core : Nat
  ctx  : Nat
  deriving DecidableEq, Repr

/-- Who moves next (log 3): a core's issue cycle, a service core's, or another step of the part. -/
inductive Mover where
  | core (n : Nat)
  | service (tile : Nat)
  | event (i : Instr)
  deriving DecidableEq, Repr

/-- One turn of the machine: who moves, how many nanoseconds pass in it, and the operand bank that an engine which has
yielded for 8 cycles takes in it (log 3; R84, log 9). -/
structure Turn where
  mover : Mover
  dt    : Nat
  bank  : Option Nat
  deriving DecidableEq, Repr

/-- What the device's discretion does at one would-block instruction (R36, R39; log 5): an I-class code, and a hold. -/
structure Choice where
  code : Nat
  hold : Bool
  deriving DecidableEq, Repr

/-- The machine. -/
structure State where
  mem      : List Host.Cell       -- physical memory (R188): addresses rising, no byte an unlisted one reads as
  poison   : List Nat             -- poisoned granules by their first physical address (R204); a word of a line that
                                  -- is dirty in a cache by its own, from 2^52 on
  cores    : Map Core
  quads    : Map Quad
  tiles    : Map Tile
  hub      : Hub
  cur      : Cursor
  schedule : List Turn
  choices  : List Choice
  draws    : Nat                  -- free values drawn
  wrote    : List (Nat × Nat)     -- runs of physical addresses written in this step (R70, R130, R170)
  deriving DecidableEq, Repr

/-- Why the machine stops. -/
inductive Fault where
  /-- Raised by `step` when the controller has refused the firmware at reset: "the device does not start"
  (R382). Safe: the part does nothing either. -/
  | notStarted
  deriving DecidableEq, Repr

/-- Why the model gives no step. -/
inductive Refusal where
  /-- Raised by an arm of `exec` whose instruction has no meaning yet, with its mnemonic. Safe: nothing can be
  proved of a step that is not there. -/
  | notModelled (mnemonic : String)
  deriving DecidableEq, Repr

/-- Copy shadow registers after reset: zero (log 1). -/
def Shadow.reset : Shadow := ⟨0, 0, 0, 0, 0, 0, 0, 0⟩

/-- Context k of core-within-quad q after reset: FREE (R25), WSP as R32 gives it (log 1), lastissue -4 (R26). -/
def Ctx.reset (q k : Nat) : Ctx :=
  { st := .free, prior := .free, stopDebug := false, stopGang := false, stopTrap := false, migrate := false, pc := 0,
    wsp := BitVec.ofNat 32 ((16 * q + k) * 0x1400), chain := [], lastIssue := -4, yielded := false,
    lost := 0, owed := none, age := 0, kept := [], park := .none, shadow := Shadow.reset, pend := [], hold := none, resv := none, resvLost := false,
    retry := none, task := none, ldas := [], stores := [], nputs := [], ops := [], past := [] }

/-- A code slot after reset: EMPTY (R196; log 1). -/
def Slot.reset : Slot := { state := .empty, sva := 0, vf := 0, frame := 0, words := [], poison := [] }

/-- A core after reset: last 15 (R26), CYC and the hoop registers 0 (R91). -/
def Core.reset : Core :=
  { ctxs := [], last := 15, cyc := 0, hoopO := 0, hoopS := 0, hoop := none, slots := [], chans := [],
    copies := [], serial := 0, journal := [], gens := [], tlb := [], l1 := [], fills := [] }

/-- A quad after reset: FDUTY 16, point 2 (R91). -/
def Quad.reset : Quad :=
  { vf := 0, part := none, lease := 0, leaseEnd := 0, holder := none, acc2 := 0, used := 0, paid := 0, fduty := 16,
    point := 2, rise := none, active := false, idle := false, accMem := [], accPoison := [], ops := [], slots := [], prog := none,
    status := 0, thresh := 0, caps := [], inbox := [], fused := false, attrs := [], counts := [],
    given := [], cycle := 0, round := [], grants := [], booked := [], tied := false, ties := 0, spares := 2, testing := [], retired := [] }

/-- A tile after reset: its rail at 550 mV, the voltage of OPPT.RAIL = 2 (R91, R15). -/
def Tile.reset : Tile :=
  { away := [], last := 15, cyc := 0, issued := [], tlb := [], railMv := 550, phase := .steady, holdEnd := 0,
    stepAt := 0, pinBusy := 0, gated := false, l2 := [], blocks := [] }

/-- A VF not configured: disabled, sprint permitted (R349, R372), no quota. -/
def VfState.reset : VfState :=
  { record := { root := 0, part := 0, wwq := 0, spr := true, hentry := 0, fring := 0, scva := 0, hwring := 0,
                weights := [], slices := [], rsvd := [] },
    sprint := true, seq := 0, fault := ⟨[]⟩, host := ⟨[]⟩, report := 0, scFrames := [] }

/-- A partition not configured: no quads, ceiling 2 (R349, R373). -/
def PartState.reset : PartState :=
  { record := { quads := [], save := 0, saveSize := 0, evring := 0, ceil := 2, taskArea := 0, taskSize := 0 },
    ceil := 2, served := none, seq := 0, event := ⟨[]⟩, gang := none, shelf := [] }

/-- The hub after reset: TSTAMP 0, MELT 0 (R91), the first lease id 1 (R357). -/
def Hub.reset : Hub :=
  { now := 0, vat := 0, ticked := 0, meltRfz := false, revoked := false, charged := 0, leaseId := 1, parts := [],
    vfs := [], queues := [], hoops := [], hoopNext := 0, susps := [], waits := [], cultures := [],
    ranges := [], dir := [], tags := [], window := [], pages := [], usage := [], reports := [], misses := [],
    commands := [], returns := [], out := [], walks := [], walkCache := [], testing := [], order := 0, firmware := 0, staged := none, rollback := 0,
    started := true }

/-- The machine right after reset. -/
def State.reset : State :=
  { mem := [], poison := [], cores := [], quads := [], tiles := [], hub := Hub.reset, cur := ⟨0, 0⟩,
    schedule := [], choices := [], draws := 0, wrote := [] }

end Sys2Proof.Machine
end

