-- ==== Sys2Proof/Machine/Maps.lean ====
section
/-!
DEFINITION. Sparse maps, byte memory in one canonical form, little-endian words (R4), bit fields, and the core grid
(R12, R188).
-/

namespace Sys2Proof.Machine

/-! Sparse maps by number. -/

/-- The value at a key, if one is listed. -/
def mapGet {α : Type} : Map α → Nat → Option α
  | [], _ => none
  | (j, v) :: t, k => if j = k then some v else mapGet t k

/-- Sets a key, keeping rising keys rising. -/
def mapSet {α : Type} : Map α → Nat → α → Map α
  | [], k, v => [(k, v)]
  | (j, w) :: t, k, v =>
    if k < j then (k, v) :: (j, w) :: t else if j = k then (k, v) :: t else (j, w) :: mapSet t k v

/-- Removes every entry of a key. -/
def mapErase {α : Type} (m : Map α) (k : Nat) : Map α := m.filter (fun e => e.1 != k)

/-! Byte memory (R186, R188). -/

namespace Memory

/-- First physical address of quad 0's local memory (R188). -/
abbrev localBase : Nat := 0x0010000000000
/-- Bytes of a quad's local memory. -/
abbrev localSize : Nat := 0x200000

/-- What a byte reads as that nothing has written: the reset values of ROUND (1) and MXSC0 to MXSC3 (0x7F7F) in the
64 workspaces of R32 (R91), and zero everywhere else (log 2). -/
def unlisted (a : Nat) : Byte :=
  if localBase ≤ a && a < localBase + 384 * localSize then
    let off := (a - localBase) % localSize
    if off < 64 * 0x1400 then
      let r := off % 0x1400
      if r = 0x1238 then 1
      else if 0x1250 ≤ r && r < 0x1270 && r % 8 < 2 then 0x7F
      else 0
    else 0
  else 0

/-- One byte. -/
def read (m : List Host.Cell) (a : Nat) : Byte := (mapGet m a).getD (unlisted a)

/-- Writes one byte, keeping the canonical form. -/
def write (m : List Host.Cell) (a : Nat) (b : Byte) : List Host.Cell :=
  if b = unlisted a then mapErase m a else mapSet m a b

/-- Writes bytes at consecutive addresses. -/
def writeBytes (m : List Host.Cell) (a : Nat) : List Byte → List Host.Cell
  | [] => m
  | b :: bs => writeBytes (write m a b) (a + 1) bs

/-- n bytes from a on. -/
def readBytes (m : List Host.Cell) (a : Nat) : Nat → List Byte
  | 0 => []
  | n + 1 => read m a :: readBytes m (a + 1) n

/-- Addresses rise strictly. -/
def rising : List Host.Cell → Bool
  | [] => true
  | [_] => true
  | x :: y :: t => x.1 < y.1 && rising (y :: t)

/-- The canonical form: addresses rise strictly and no byte is listed that an unlisted address reads as. -/
def wf (m : List Host.Cell) : Bool := rising m && m.all (fun c => c.2 != unlisted c.1)

end Memory

/-! Little-endian words (R4). -/

/-- The number whose bytes these are, least significant first. -/
def leNat : List Byte → Nat
  | [] => 0
  | b :: bs => b.toNat + 256 * leNat bs

/-- n bytes of a number, least significant first. -/
def toLE : Nat → Nat → List Byte
  | 0, _ => []
  | n + 1, v => BitVec.ofNat 8 v :: toLE n (v / 256)

/-- Bits [hi:lo] of a number. -/
def bits (v : Nat) (hi lo : Nat) : Nat := v / 2 ^ lo % 2 ^ (hi + 1 - lo)

/-- Bits [hi:lo] of a 64-bit value, as a number (R3). -/
def fld (v : W64) (hi lo : Nat) : Nat := bits v.toNat hi lo

/-- v with bits [hi:lo] replaced by x. -/
def setFld (v : W64) (hi lo x : Nat) : W64 :=
  let n := v.toNat
  BitVec.ofNat 64 (n - bits n hi lo * 2 ^ lo + x % 2 ^ (hi + 1 - lo) * 2 ^ lo)

/-- The low n bits of x, sign-extended to 64 bits (R77). -/
def sext64 (x : W64) (n : Nat) : W64 := BitVec.ofInt 64 (((BitVec.ofNat n x.toNat)).toInt)

/-- Thirty-two ones where b, else 0: a predicate word. -/
def allOnes32 (b : Bool) : W32 := if b then 0xFFFFFFFF else 0

/-- The position, from 0, of the first element that satisfies p. -/
def findPos {α : Type} (p : α → Bool) : List α → Option Nat
  | [] => none
  | x :: t => if p x then some 0 else (findPos p t).map (· + 1)

/-- A list without its n-th element. -/
def dropAt {α : Type} : List α → Nat → List α
  | [], _ => []
  | _ :: t, 0 => t
  | x :: t, n + 1 => x :: dropAt t n

/-- A list with its n-th element changed. -/
def modAt {α : Type} (f : α → α) : List α → Nat → List α
  | [], _ => []
  | x :: t, 0 => f x :: t
  | x :: t, n + 1 => x :: modAt f t n

/-- Numbers from a on, n of them. -/
def fromTo (a : Nat) : Nat → List Nat
  | 0 => []
  | n + 1 => a :: fromTo (a + 1) n

/-! The core grid (R12). -/

def coreX (n : Nat) : Nat := n % 64
def coreY (n : Nat) : Nat := n / 64
def coreAt (x y : Nat) : Nat := 64 * y + x
def dieOf (n : Nat) : Nat := coreX n / 32 + 2 * (coreY n / 12)
def tileOf (n : Nat) : Nat := 8 * (coreY n / 4) + coreX n / 8
def tileInDie (n : Nat) : Nat := 4 * (coreY n / 4 % 3) + coreX n / 8 % 4
def quadOf (n : Nat) : Nat := 32 * (coreY n / 2) + coreX n / 2
def quadInTile (n : Nat) : Nat := 4 * (coreY n / 2 % 2) + coreX n / 2 % 4
def coreInQuad (n : Nat) : Nat := 2 * (coreY n % 2) + coreX n % 2
/-- Core c within quad q. -/
def quadCore (q c : Nat) : Nat := coreAt (2 * (q % 32) + c % 2) (2 * (q / 32) + c / 2)
/-- The four cores of a quad. -/
def quadCores (q : Nat) : List Nat := (fromTo 0 4).map (quadCore q)
def tileOfQuad (q : Nat) : Nat := tileOf (quadCore q 0)
/-- The eight quads of a tile. -/
def tileQuads (t : Nat) : List Nat :=
  (fromTo 0 8).map (fun i => 32 * (2 * (t / 8) + i / 4) + 4 * (t % 8) + i % 4)
/-- The 32 cores of a tile. -/
def tileCores (t : Nat) : List Nat := (fromTo 0 32).map (fun i => coreAt (8 * (t % 8) + i % 8) (4 * (t / 8) + i / 8))

/-! The physical map (R188). -/

/-- First address of quad q's local memory. -/
def quadLocal (q : Nat) : Nat := Memory.localBase + q * Memory.localSize
def hbmEnd : Nat := 0x0006000000000
def svcBase : Nat := 0x0010100000000
def svcLocal (t : Nat) : Nat := svcBase + t * 0x100000
def cfgBase : Nat := 0x0010200000000
def cfgPage (q : Nat) : Nat := cfgBase + q * 0x1000
def hostBase : Nat := 0x8000000000000
def isHbm (pa : Nat) : Bool := pa < hbmEnd
def isLocal (pa : Nat) : Bool := Memory.localBase ≤ pa && pa < Memory.localBase + 384 * Memory.localSize
def isSvc (pa : Nat) : Bool := svcBase ≤ pa && pa < svcBase + 48 * 0x100000
def isCfg (pa : Nat) : Bool := cfgBase ≤ pa && pa < cfgBase + 384 * 0x1000
def isHost (pa : Nat) : Bool := hostBase ≤ pa && pa < 2 * hostBase
/-- Memory stands behind the address (R188). -/
def isBacked (pa : Nat) : Bool := isHbm pa || isLocal pa || isSvc pa || isCfg pa || isHost pa
/-- The quad whose local memory holds the byte, and the offset in it. -/
def localQuad (pa : Nat) : Nat := (pa - Memory.localBase) / Memory.localSize
def localOff (pa : Nat) : Nat := (pa - Memory.localBase) % Memory.localSize
/-- The line of a byte (R190). -/
def lineOf (pa : Nat) : Nat := pa / 64
/-- The poison granule of a byte (R204): 8 bytes on the package's SRAM, 64 in HBM and host memory. -/
def granule (pa : Nat) : Nat := if isHbm pa || isHost pa then pa / 64 * 64 else pa / 8 * 8
/-- Where poison marks of words of dirty cached lines begin: above every physical address. -/
def cachedMark : Nat := 2 ^ 52
/-- The granule of a byte of a line that is dirty in L1 or L2: its 8-byte word (R204). -/
def cachedWord (pa : Nat) : Nat := cachedMark + pa / 8 * 8
/-- The bytes of a marked granule. -/
def granuleBytes (g : Nat) : List Nat :=
  if cachedMark ≤ g then fromTo (g - cachedMark) 8 else fromTo g (if isHbm g || isHost g then 64 else 8)

/-! Virtual windows (R191). -/

def localWin : Nat := 0x00007FFFFFE00000
def svcWin : Nat := 0x00007FFFFFD00000
/-- CAPBASE (R378). -/
def capBase : W64 := 0x00007FFFFFC00000
/-- Bytes of the read-only pages from CAPBASE on: the list, the stock culture images, the firmware measurement and the
identity certificate chain, whose places the part fixes (log 55). -/
def capSize : Nat := 0x5000
def imagesVa : Nat := 0x00007FFFFFC01000
def measureVa : Nat := 0x00007FFFFFC03000
def chainVa : Nat := 0x00007FFFFFC04000
/-- Where the bytes of these pages stand in the model: addresses that R188 gives to no memory (log 55). -/
def romBase : Nat := 0x0010300000000
def isRom (pa : Nat) : Bool := romBase ≤ pa && pa < romBase + capSize

end Sys2Proof.Machine
end

