-- ==== Sys2Proof/Machine/Float.lean ====
section
/-!
DEFINITION. Number formats and rounding (R119 to R139): every finite value is an exact dyadic number, every result is
formed exactly (or, for the transcendental functions, to far more bits than decide it) and rounded once.
-/

namespace Sys2Proof.Machine

/-- A decoded number: NaN (signalling or not), infinity, or (-1)^neg * m * 2^e. -/
inductive Num where
  | nan (signalling : Bool)
  | inf (neg : Bool)
  | fin (neg : Bool) (m : Nat) (e : Int)
  deriving DecidableEq, Repr

/-- FLAGS.FX bits (R91). -/
def fxInvalid : Nat := 16
def fxDivZero : Nat := 8
def fxOverflow : Nat := 4
def fxUnderflow : Nat := 2
def fxInexact : Nat := 1

/-- A binary format: precision with the implicit bit, exponent of the least quantum, largest finite magnitude code,
infinity and NaN codes, sign position (none when unsigned), and whether zero has a sign (R120, R122). -/
structure Fmt where
  prec  : Nat
  qmin  : Int
  maxF  : Nat
  inf   : Option Nat
  nan   : Nat
  sign  : Option Nat
  zeros : Bool
  b8    : Bool
  deriving DecidableEq, Repr

def fp32 : Fmt := ⟨24, -149, 0x7F7FFFFF, some 0x7F800000, 0x7FC00000, some 31, true, false⟩
def fp16 : Fmt := ⟨11, -24, 0x7BFF, some 0x7C00, 0x7E00, some 15, true, false⟩
def bf16 : Fmt := ⟨8, -133, 0x7F7F, some 0x7F80, 0x7FC0, some 15, true, false⟩

/-- The binary8 format of a code (R119, R122). -/
def b8fmt (f : BitVec 6) : Fmt :=
  let p := (f.extractLsb' 0 3).toNat
  let sgn := f.getLsbD 4
  let inf := f.getLsbD 3
  let w := if sgn then 8 - p else 9 - p
  let bias : Int := 2 ^ (w - 1)
  let top := if sgn then 0x7F else 0xFE
  { prec := p, qmin := 1 - bias - ((p : Int) - 1), maxF := if inf then top - 1 else top,
    inf := if inf then some top else none, nan := if sgn then 0x80 else 0xFF,
    sign := if sgn then some 7 else none, zeros := false, b8 := true }

/-- The format of a code other than raw and E8. -/
def fmtOf (f : BitVec 6) : Fmt := if f == 1 then fp32 else if f == 2 then fp16 else if f == 3 then bf16 else b8fmt f

/-- Bits a number needs. -/
def bitLen (n : Nat) : Nat := if n = 0 then 0 else Nat.log2 n + 1

/-- The value of a code (R120, R122). -/
def decodeNum (F : Fmt) (c : Nat) : Num :=
  let neg := match F.sign with | some b => c.testBit b | none => false
  let mag := match F.sign with | some b => c % 2 ^ b | none => c
  if F.b8 then
    if c = F.nan then .nan false
    else if F.inf = some mag then .inf neg
    else
      let t := F.prec - 1
      let E := mag / 2 ^ t
      let T := mag % 2 ^ t
      if E = 0 then .fin neg T F.qmin else .fin neg (2 ^ t + T) (F.qmin + E - 1)
  else
    let t := F.prec - 1
    let E := mag / 2 ^ t
    let T := mag % 2 ^ t
    if F.inf = some mag then .inf neg
    else if mag > F.maxF then .nan (! T.testBit (t - 1))
    else if E = 0 then .fin neg T F.qmin else .fin neg (2 ^ t + T) (F.qmin + E - 1)

/-- Decodes an FP32 word. -/
def num32 (w : W32) : Num := decodeNum fp32 w.toNat

/-- The value of an E8 byte (R125). -/
def numE8 (e : Nat) : Num := if e = 255 then .nan false else .fin false 1 ((e : Int) - 127)

/-- Significand and quantum exponent after rounding, and whether the value was exact. `sticky` says that the exact
value lies strictly between m and m + 1 units of 2^e; `qmin` bounds the quantum from below (R131, R132). -/
def roundSig (p : Nat) (qmin : Option Int) (rm : Nat) (draw : Nat) (neg : Bool) (m : Nat) (e : Int) (sticky : Bool) :
    Nat × Int × Bool :=
  let q0 : Int := e + bitLen m - p
  let q := match qmin with | some l => max q0 l | none => q0
  if q ≤ e then (m * 2 ^ (e - q).toNat, q, !sticky)
  else
    let k := (q - e).toNat
    let hi := m / 2 ^ k
    let rem := m % 2 ^ k
    if rem = 0 && !sticky then (hi, q, true)
    else
      let half := 2 ^ (k - 1)
      let up :=
        if rm = 2 then false
        else if rm = 3 then !neg
        else if rm = 4 then neg
        else if rm = 5 then
          let first := if 16 ≤ k then rem / 2 ^ (k - 16) else rem * 2 ^ (16 - k)
          draw < first
        else rem > half || (rem = half && (sticky || hi % 2 = 1))
      (if up then hi + 1 else hi, q, false)

/-- The magnitude code of significand and quantum: monotone in the value, carries included. -/
def magCode (F : Fmt) (m : Nat) (q : Int) : Nat := (q - F.qmin).toNat * 2 ^ (F.prec - 1) + m

/-- A magnitude code with its sign. -/
def signCode (F : Fmt) (neg : Bool) (mag : Nat) : Nat :=
  match F.sign with
  | some b => if neg && (F.zeros || mag ≠ 0) then 2 ^ b + mag else mag
  | none => mag

/-- The code an overflow delivers (R133). -/
def overflowCode (F : Fmt) (rm : Nat) (sat neg : Bool) : Nat :=
  match F.inf with
  | none => signCode F neg F.maxF
  | some i =>
    if sat || rm = 2 || (rm = 3 && neg) || (rm = 4 && !neg) then signCode F neg F.maxF else signCode F neg i

/-- One rounding of an exact value into a format, its code and FX flags (R131 to R133, R135). Under stochastic rounding
the tininess test, a rounding with unbounded exponent, reuses the one draw, since R135 names none (DESIGN CHOICE, log 71). -/
def deliver (F : Fmt) (rm draw : Nat) (sat neg : Bool) (m : Nat) (e : Int) (sticky : Bool) : Nat × Nat :=
  if m = 0 && !sticky then (if F.zeros then signCode F neg 0 else 0, 0)
  else if neg && F.sign.isNone then (if sat then 0 else F.nan, fxInvalid)
  else
    let r := roundSig F.prec (some F.qmin) rm draw neg m e sticky
    let mag := magCode F r.1 r.2.1
    if mag > F.maxF then (overflowCode F rm sat neg, fxOverflow + fxInexact)
    else
      let u := roundSig F.prec none rm draw neg m e sticky
      let tiny := bitLen u.1 + u.2.1 ≤ F.qmin + F.prec - 1
      let inexact := !r.2.2
      (signCode F neg mag, if inexact then fxInexact + (if tiny then fxUnderflow else 0) else 0)

/-- Whether a value rounds inexactly in a format, so that a stochastic rounding takes a draw (R132). A value above the
largest finite one that lies on the grid continued without bound takes none: R132 can be read either way (DESIGN CHOICE, log 71). -/
def needsDraw (F : Fmt) : Num → Bool
  | .fin neg m e => m ≠ 0 && !(neg && F.sign.isNone) && !(roundSig F.prec (some F.qmin) 2 0 neg m e false).2.2
  | _ => false

/-- A number into a format: a conversion or an arithmetic result (R133). A NaN here was NaN before. -/
def encodeNum (F : Fmt) (rm draw : Nat) (sat : Bool) : Num → Nat × Nat
  | .nan s => (F.nan, if s then fxInvalid else 0)
  | .inf neg =>
    if neg && F.sign.isNone then (if sat then 0 else F.nan, fxInvalid)
    else match F.inf with
      | some i => if sat then (signCode F neg F.maxF, fxOverflow + fxInexact) else (signCode F neg i, 0)
      | none => (signCode F neg F.maxF, fxOverflow + fxInexact)
  | .fin neg m e => deliver F rm draw sat neg m e false

/-- FP32 to E8 (R125). -/
def encodeE8 : Num → Nat
  | .fin _ m e =>
    if m = 0 then 0
    else
      let l : Int := e + bitLen m - 1 + 127
      if l < 0 then 0 else if l > 254 then 254 else l.toNat
  | _ => 255

/-! Arithmetic on FP32 values (R136): results as FP32 words with FX flags. -/

/-- The canonical FP32 NaN. -/
def nan32 : Nat := 0x7FC00000

def Num.isNan : Num → Bool
  | .nan _ => true
  | _ => false
def Num.isSnan : Num → Bool
  | .nan s => s
  | _ => false
def Num.neg : Num → Num
  | .nan s => .nan s
  | .inf n => .inf (!n)
  | .fin n m e => .fin (!n) m e

/-- Sign and magnitude of an integer. -/
def ofSigned (z : Int) (e : Int) (zeroNeg : Bool) : Num :=
  if z = 0 then .fin zeroNeg 0 e else .fin (z < 0) z.natAbs e

/-- The signed significand at a lower exponent. -/
def scaled (n : Bool) (m : Nat) (e q : Int) : Int :=
  let v : Int := (m * 2 ^ (e - q).toNat : Nat)
  if n then -v else v

/-- Exact sum: a number, or NaN for opposite infinities (invalid). An exact zero sum of opposite operands is -0 only
under mode 4 (R131). -/
def addNum (rm : Nat) : Num → Num → Num × Nat
  | .nan s, y => (.nan false, if s || y.isSnan then fxInvalid else 0)
  | x, .nan s => (.nan false, if s || x.isSnan then fxInvalid else 0)
  | .inf a, .inf b => if a = b then (.inf a, 0) else (.nan false, fxInvalid)
  | .inf a, _ => (.inf a, 0)
  | _, .inf b => (.inf b, 0)
  | .fin n1 m1 e1, .fin n2 m2 e2 =>
    let q := min e1 e2
    let z := scaled n1 m1 e1 q + scaled n2 m2 e2 q
    (ofSigned z q (if n1 = n2 then n1 else rm = 4), 0)

/-- Exact product (R136). -/
def mulNum : Num → Num → Num × Nat
  | .nan s, y => (.nan false, if s || y.isSnan then fxInvalid else 0)
  | x, .nan s => (.nan false, if s || x.isSnan then fxInvalid else 0)
  | .inf a, .inf b => (.inf (a != b), 0)
  | .inf a, .fin n m _ => if m = 0 then (.nan false, fxInvalid) else (.inf (a != n), 0)
  | .fin n m _, .inf b => if m = 0 then (.nan false, fxInvalid) else (.inf (n != b), 0)
  | .fin n1 m1 e1, .fin n2 m2 e2 => (.fin (n1 != n2) (m1 * m2) (e1 + e2), 0)

/-- One rounding of an exact number to FP32, with the flags so far. -/
def to32 (rm : Nat) (r : Num × Nat) : W32 × Nat :=
  let c := encodeNum fp32 (if rm = 5 then 1 else rm) 0 false r.1
  (BitVec.ofNat 32 c.1, c.2 ||| r.2)

def fAdd (rm : Nat) (x y : W32) : W32 × Nat := to32 rm (addNum rm (num32 x) (num32 y))
def fSub (rm : Nat) (x y : W32) : W32 × Nat := to32 rm (addNum rm (num32 x) (num32 y).neg)
def fMul (rm : Nat) (x y : W32) : W32 × Nat := to32 rm (mulNum (num32 x) (num32 y))

/-- x * y + z with one rounding; negations of operands first. A product 0 * inf is invalid whatever z (R136). -/
def fFma (rm : Nat) (negProd negZ : Bool) (x y z : W32) : W32 × Nat :=
  let p := mulNum (num32 x) (num32 y)
  let p' := if negProd then p.1.neg else p.1
  let zn := if negZ then (num32 z).neg else num32 z
  let s := addNum rm p' zn
  to32 rm (s.1, s.2 ||| p.2)

/-- Order of two numbers: -1, 0, 1. -/
def cmpNum : Num → Num → Int
  | .inf a, .inf b => if a = b then 0 else if a then -1 else 1
  | .inf a, _ => if a then -1 else 1
  | _, .inf b => if b then 1 else -1
  | .fin n1 m1 e1, .fin n2 m2 e2 =>
    let q := min e1 e2
    let d := scaled n1 m1 e1 q - scaled n2 m2 e2 q
    if d < 0 then -1 else if d = 0 then 0 else 1
  | _, _ => 0

/-- Minimum or maximum (R136). -/
def fMinMax (isMax : Bool) (x y : W32) : W32 × Nat :=
  let a := num32 x
  let b := num32 y
  let fl := if a.isSnan || b.isSnan then fxInvalid else 0
  if a.isNan && b.isNan then (BitVec.ofNat 32 nan32, fl)
  else if a.isNan then (y, fl)
  else if b.isNan then (x, fl)
  else
    let c := cmpNum a b
    if c = 0 then
      -- equal: only zeros of two signs differ; -0 counts below +0
      (if isMax then x &&& y else x ||| y, 0)
    else if (c < 0) != isMax then (x, 0) else (y, 0)

/-- The largest r with r * r ≤ n, one bit a step. -/
def isqrtGo (n : Nat) : Nat → Nat → Nat
  | 0, r => r
  | k + 1, r => isqrtGo n k (if (r + 2 ^ k) * (r + 2 ^ k) ≤ n then r + 2 ^ k else r)

/-- Integer square root of a number below 2^(2 k). -/
def isqrt (k n : Nat) : Nat := isqrtGo n k 0

/-- 1 / x (R151). -/
def fRcp (rm : Nat) (x : W32) : W32 × Nat :=
  match num32 x with
  | .nan s => (BitVec.ofNat 32 nan32, if s then fxInvalid else 0)
  | .inf n => (if n then 0x80000000 else 0, 0)
  | .fin n m e =>
    if m = 0 then (if n then 0xFF800000 else 0x7F800000, fxDivZero)
    else
      let k := bitLen m + 40
      let c := deliver fp32 (if rm = 5 then 1 else rm) 0 false n (2 ^ k / m) (-(k : Int) - e) (2 ^ k % m ≠ 0)
      (BitVec.ofNat 32 c.1, c.2)

/-- Square root, or its reciprocal (R151). -/
def fSqrt (recip : Bool) (rm : Nat) (x : W32) : W32 × Nat :=
  match num32 x with
  | .nan s => (BitVec.ofNat 32 nan32, if s then fxInvalid else 0)
  | .inf n => if n then (BitVec.ofNat 32 nan32, fxInvalid) else (if recip then 0 else x, 0)
  | .fin n m e =>
    if m = 0 then
      if recip then (if n then 0xFF800000 else 0x7F800000, fxDivZero) else (x, 0)
    else if n then (BitVec.ofNat 32 nan32, fxInvalid)
    else
      let odd := e % 2 ≠ 0
      let m1 := if odd then 2 * m else m
      let h : Int := (if odd then e - 1 else e) / 2      -- x = m1 * 4^h
      let rm' := if rm = 5 then 1 else rm
      if recip then
        -- 1 / sqrt(m1) to 2^-60: the root of 2^120 / m1
        let y := 2 ^ 120 / m1
        let r := isqrt 61 y
        let c := deliver fp32 rm' 0 false false r (-60 - h) (r * r * m1 ≠ 2 ^ 120)
        (BitVec.ofNat 32 c.1, c.2)
      else
        let y := m1 * 2 ^ 80
        let r := isqrt 54 y
        let c := deliver fp32 rm' 0 false false r (h - 40) (r * r ≠ y)
        (BitVec.ofNat 32 c.1, c.2)

/-- ln 2 in units of 2^-256. -/
def ln2 : Nat := 80260960185991308862233904206310070533990667611589946606122867505419956976171

/-- The sum of y^k / k! in units of 2^-256, from the term in hand. -/
def expGo (y : Nat) : Nat → Nat → Nat → Nat → Nat
  | 0, _, _, sum => sum
  | n + 1, k, term, sum =>
    let t := term * y / 2 ^ 256 / k
    expGo y n (k + 1) t (sum + t)

/-- 2^f for a fraction f in units of 2^-256, result likewise, from 1 to below 2 (log 17). -/
def exp2Frac (f : Nat) : Nat := expGo (f * ln2 / 2 ^ 256) 60 1 (2 ^ 256) (2 ^ 256)

/-- 2^x, correctly rounded (R151; log 17). -/
def fExp2 (rm : Nat) (x : W32) : W32 × Nat :=
  let rm' := if rm = 5 then 1 else rm
  match num32 x with
  | .nan s => (BitVec.ofNat 32 nan32, if s then fxInvalid else 0)
  | .inf n => (if n then 0 else 0x7F800000, 0)
  | .fin n m e =>
    let v : Int := if n then -(m : Int) else m
    -- floor and fraction of v * 2^e
    let fl : Int := if 0 ≤ e then v * 2 ^ (min e 12).toNat else v / 2 ^ (min (-e) 200).toNat
    let big : Bool := 0 ≤ e + bitLen m - 12
    if m = 0 then (0x3F800000, 0)
    else if big then
      let c := if n then deliver fp32 rm' 0 false false 1 (-2000) true else deliver fp32 rm' 0 false false 1 2000 false
      (BitVec.ofNat 32 c.1, c.2)
    else
      let frac : Int := if 0 ≤ e then 0 else v % 2 ^ (min (-e) 200).toNat
      if frac = 0 then
        let c := deliver fp32 rm' 0 false false 1 fl false
        (BitVec.ofNat 32 c.1, c.2)
      else
        let f := frac.toNat * 2 ^ (256 - (min (-e) 200).toNat)
        let c := deliver fp32 rm' 0 false false (exp2Frac f / 2 ^ 40) (fl - 216) true
        (BitVec.ofNat 32 c.1, c.2)

/-- The sum of z^(2k+1) / (2k+1) in units of 2^-256, from the power in hand. -/
def atanhGo (z2 : Nat) : Nat → Nat → Nat → Nat → Nat
  | 0, _, _, sum => sum
  | n + 1, k, pow, sum => atanhGo z2 n (k + 2) (pow * z2 / 2 ^ 256) (sum + pow / k)

/-- log2 of a mantissa m / 2^(l-1) from 1 to below 2, in units of 2^-240 (log 17). -/
def log2Mant (m l : Nat) : Nat :=
  let one := 2 ^ (l - 1)
  let z := (m - one) * 2 ^ 256 / (m + one)
  2 * atanhGo (z * z / 2 ^ 256) 90 1 z 0 * 2 ^ 240 / ln2

/-- log2 x, correctly rounded (R151; log 17). -/
def fLog2 (rm : Nat) (x : W32) : W32 × Nat :=
  let rm' := if rm = 5 then 1 else rm
  match num32 x with
  | .nan s => (BitVec.ofNat 32 nan32, if s then fxInvalid else 0)
  | .inf n => if n then (BitVec.ofNat 32 nan32, fxInvalid) else (0x7F800000, 0)
  | .fin n m e =>
    if m = 0 then (0xFF800000, fxDivZero)
    else if n then (BitVec.ofNat 32 nan32, fxInvalid)
    else
      let l := bitLen m
      let k : Int := e + l - 1
      if m = 2 ^ (l - 1) then
        let c := deliver fp32 rm' 0 false (k < 0) k.natAbs 0 false
        (BitVec.ofNat 32 c.1, c.2)
      else
        let z : Int := k * 2 ^ 240 + log2Mant m l
        -- for a negative sum the computed value lies above -|log2 x|: the magnitude's floor is one unit less
        let mag := if z < 0 then z.natAbs - 1 else z.natAbs
        let c := deliver fp32 rm' 0 false (z < 0) mag (-240) true
        (BitVec.ofNat 32 c.1, c.2)

/-- Absolute value or negation of a lane (R151). -/
def fAbs (x : W32) : W32 := if (num32 x).isNan then BitVec.ofNat 32 nan32 else x &&& 0x7FFFFFFF
def fNeg (x : W32) : W32 := if (num32 x).isNan then BitVec.ofNat 32 nan32 else x ^^^ 0x80000000

/-- The class mask (R152). -/
def fClass (x : W32) : W32 :=
  match num32 x with
  | .nan s => if s then 0x100 else 0x200
  | .inf n => if n then 0x001 else 0x080
  | .fin n m _ =>
    if m = 0 then (if n then 0x008 else 0x010)
    else if m < 2 ^ 23 then (if n then 0x004 else 0x020)
    else (if n then 0x002 else 0x040)

/-- A float compare and its invalid flag (R74, R153). -/
def fCompare (cc : Nat) (x y : W32) : Bool × Nat :=
  let a := num32 x
  let b := num32 y
  let un := a.isNan || b.isNan
  let c := cmpNum a b
  let signalling := a.isSnan || b.isSnan
  let quietOnly := cc = 0 || cc = 1 || cc = 0xB
  let fl := if (if quietOnly then signalling else un) then fxInvalid else 0
  let r :=
    if cc = 0 then !un && c = 0
    else if cc = 1 then un || c ≠ 0
    else if cc = 2 then !un && c < 0
    else if cc = 3 then !un && c ≤ 0
    else if cc = 4 then !un && c > 0
    else if cc = 5 then !un && c ≥ 0
    else un
  (r, fl)

/-- A finite value rounded to an integer, and whether it was one (R134, R156). -/
def roundInt (rm : Nat) (neg : Bool) (m : Nat) (e : Int) : Nat × Bool :=
  if 0 ≤ e then (m * 2 ^ e.toNat, true)
  else
    let k := (-e).toNat
    let hi := m / 2 ^ k
    let rem := m % 2 ^ k
    let half := 2 ^ (k - 1)
    if rem = 0 then (hi, true)
    else
      let up := if rm = 2 then false else if rm = 3 then !neg else if rm = 4 then neg
        else rem > half || (rem = half && hi % 2 = 1)
      (if up then hi + 1 else hi, false)

/-- FP32 to a W-bit integer, signed or not (R134). -/
def fToInt (signed : Bool) (W rm : Nat) (x : W32) : Int × Nat :=
  let lo : Int := if signed then -(2 ^ (W - 1)) else 0
  let hi : Int := if signed then 2 ^ (W - 1) - 1 else 2 ^ W - 1
  match num32 x with
  | .nan _ => (0, fxInvalid)
  | .inf n => (if n then lo else hi, fxInvalid)
  | .fin n m e =>
    let r := roundInt (if rm = 5 then 1 else rm) n m e
    let z : Int := if n then -(r.1 : Int) else r.1
    if z < lo then (lo, fxInvalid) else if z > hi then (hi, fxInvalid)
    else (z, if r.2 then 0 else fxInexact)

/-- An integer to FP32, rounded once (R134). -/
def intToF (rm : Nat) (z : Int) : W32 × Nat := to32 rm (ofSigned z 0 false, 0)

/-- A lane rounded to an integral value (R156). -/
def fRnd (rm : Nat) (x : W32) : W32 × Nat :=
  match num32 x with
  | .nan s => (BitVec.ofNat 32 nan32, if s then fxInvalid else 0)
  | .inf _ => (x, 0)
  | .fin n m e =>
    if 0 ≤ e + bitLen m - 24 || m = 0 then (x, 0)
    else
      let r := roundInt (if rm = 5 then 1 else rm) n m e
      let c := deliver fp32 1 0 false n r.1 0 false
      (BitVec.ofNat 32 c.1, if r.2 then 0 else fxInexact)

/-! The stochastic generators (R132). -/

def genStep (g : W32) : W32 := if g.getLsbD 0 then (g >>> 1) ^^^ 0x80200003 else g >>> 1

/-- Sixteen steps: the draw and the generator after it. -/
def genDrawGo : Nat → W32 → Nat → Nat × W32
  | 0, g, d => (d, g)
  | n + 1, g, d =>
    let g' := genStep g
    genDrawGo n g' (2 * d + (if g'.getLsbD 0 then 1 else 0))
def genDraw (g : W32) : Nat × W32 := genDrawGo 16 g 0

/-- Encodes an exact number into the format of a code, with the lane's generator (R131 to R133): element code, flags,
generator after it. E8 ignores mode and flags (R125). -/
def encodeElem (f : BitVec 6) (rm : Nat) (sat : Bool) (g : W32) (x : Num) : Nat × Nat × W32 :=
  if f == 4 then (encodeE8 x, 0, g)
  else
    let F := fmtOf f
    if rm = 5 && F.b8 then
      if needsDraw F x then
        let d := genDraw g
        let c := encodeNum F 5 d.1 sat x
        (c.1, c.2, d.2)
      else
        let c := encodeNum F 5 0 sat x
        (c.1, c.2, g)
    else
      let c := encodeNum F (if rm = 5 then 1 else rm) 0 sat x
      (c.1, c.2, g)

/-- The number an element code stands for. -/
def elemNum (f : BitVec 6) (c : Nat) : Num := if f == 4 then numE8 c else decodeNum (fmtOf f) c

/-- Decodes an element to FP32, exactly (R154, R155): word and the invalid flag of a signalling NaN. -/
def decodeElem (f : BitVec 6) (c : Nat) : W32 × Nat :=
  let r := encodeNum fp32 1 0 false (elemNum f c)
  (BitVec.ofNat 32 r.1, r.2)

/-- A number times 2^k. -/
def Num.scale (k : Int) : Num → Num
  | .fin n m e => .fin n m (e + k)
  | x => x

/-- The lane a vector load gives (R128): `s` is the scale byte where the page has one. -/
def loadLane (f : BitVec 6) (sh : Bool) (s : Nat) (rm : Nat) (c : Nat) : W32 :=
  if f == 0 || (f == 1 && !sh) then BitVec.ofNat 32 c
  else if sh && s = 255 then BitVec.ofNat 32 nan32
  else
    let x := elemNum f c
    let y := if sh then x.scale ((s : Int) - 127) else x
    BitVec.ofNat 32 (encodeNum fp32 (if rm = 5 then 1 else rm) 0 false y).1

/-- The element a vector store gives (R129), with the lane's generator after it. -/
def storeElem (f : BitVec 6) (sh : Bool) (s : Nat) (rm : Nat) (g : W32) (lane : W32) : Nat × W32 :=
  if f == 0 || (f == 1 && !sh) then (lane.toNat, g)
  else if sh && s = 255 then ((fmtOf f).nan, g)
  else
    let x := num32 lane
    let y := if sh then x.scale (127 - (s : Int)) else x
    let r := encodeElem f rm false g y
    (r.1, r.2.2)

end Sys2Proof.Machine
end

