-- ==== Sys2Proof/Machine/Access.lean ====
section
/-!
DEFINITION. One way to each piece of the state: units by number, the memory by physical address, the workspace
registers of a context (R78, R80), the control registers (R79, R91).
-/

namespace Sys2Proof.Machine

/-! Units by number. -/

def State.core (s : State) (n : Nat) : Core := (mapGet s.cores n).getD Core.reset
def State.setCore (s : State) (n : Nat) (c : Core) : State := { s with cores := mapSet s.cores n c }
def State.modCore (s : State) (n : Nat) (f : Core → Core) : State := s.setCore n (f (s.core n))

/-- Context k of a core. -/
def Core.ctx (c : Core) (n k : Nat) : Ctx := (mapGet c.ctxs k).getD (Ctx.reset (coreInQuad n) k)
def State.ctx (s : State) (n k : Nat) : Ctx := (s.core n).ctx n k
def State.setCtx (s : State) (n k : Nat) (x : Ctx) : State :=
  s.modCore n (fun c => { c with ctxs := mapSet c.ctxs k x })
def State.modCtx (s : State) (n k : Nat) (f : Ctx → Ctx) : State := s.setCtx n k (f (s.ctx n k))

def State.quad (s : State) (q : Nat) : Quad := (mapGet s.quads q).getD Quad.reset
def State.setQuad (s : State) (q : Nat) (x : Quad) : State := { s with quads := mapSet s.quads q x }
def State.modQuad (s : State) (q : Nat) (f : Quad → Quad) : State := s.setQuad q (f (s.quad q))

def State.tile (s : State) (t : Nat) : Tile := (mapGet s.tiles t).getD Tile.reset
def State.setTile (s : State) (t : Nat) (x : Tile) : State := { s with tiles := mapSet s.tiles t x }
def State.modTile (s : State) (t : Nat) (f : Tile → Tile) : State := s.setTile t (f (s.tile t))

def State.modHub (s : State) (f : Hub → Hub) : State := { s with hub := f s.hub }

def State.vf (s : State) (v : Nat) : VfState := (mapGet s.hub.vfs v).getD VfState.reset
def State.modVf (s : State) (v : Nat) (f : VfState → VfState) : State :=
  s.modHub (fun h => { h with vfs := mapSet h.vfs v (f (s.vf v)) })
def State.part (s : State) (p : Nat) : PartState := (mapGet s.hub.parts p).getD PartState.reset
def State.modPart (s : State) (p : Nat) (f : PartState → PartState) : State :=
  s.modHub (fun h => { h with parts := mapSet h.parts p (f (s.part p)) })
def State.hoop (s : State) (h : Nat) : Option Hoop := mapGet s.hub.hoops h
def State.modHoop (s : State) (h : Nat) (f : Hoop → Hoop) : State :=
  match s.hoop h with
  | some x => s.modHub (fun u => { u with hoops := mapSet u.hoops h (f x) })
  | none => s
def State.queue (s : State) (v q : Nat) : Option LQueue := mapGet s.hub.queues (8 * v + q)
def State.modQueue (s : State) (v q : Nat) (f : LQueue → LQueue) : State :=
  match s.queue v q with
  | some x => s.modHub (fun u => { u with queues := mapSet u.queues (8 * v + q) (f x) })
  | none => s
def Usage.zero : Usage := ⟨0, 0, 0, 0, 0, 0, 0⟩
def State.usage (s : State) (v : Nat) : Usage := (mapGet s.hub.usage v).getD Usage.zero
def State.modUsage (s : State) (v : Nat) (f : Usage → Usage) : State :=
  s.modHub (fun u => { u with usage := mapSet u.usage v (f (s.usage v)) })
def RegPage.zero : RegPage := ⟨0, false, [], false, [], []⟩
def State.page (s : State) (v : Nat) : RegPage := (mapGet s.hub.pages v).getD RegPage.zero
def State.modPage (s : State) (v : Nat) (f : RegPage → RegPage) : State :=
  s.modHub (fun u => { u with pages := mapSet u.pages v (f (s.page v)) })
/-- A message to the outside world. -/
def State.send (s : State) (m : Message) : State := s.modHub (fun u => { u with out := m :: u.out })

def Core.slot (c : Core) (k : Nat) : Slot := (mapGet c.slots k).getD Slot.reset
def State.modSlot (s : State) (n k : Nat) (f : Slot → Slot) : State :=
  s.modCore n (fun c => { c with slots := mapSet c.slots k (f (c.slot k)) })
def Chan.empty : Chan := ⟨[], []⟩
def Core.chan (c : Core) (k : Nat) : Chan := (mapGet c.chans k).getD Chan.empty
def State.modChan (s : State) (n k : Nat) (f : Chan → Chan) : State :=
  s.modCore n (fun c => { c with chans := mapSet c.chans k (f (c.chan k)) })
def JEntry.free : JEntry := ⟨.free, 0, 0, false, false, 0, 0, 0, [], 0⟩
def Core.entry (c : Core) (k : Nat) : JEntry := (mapGet c.journal k).getD JEntry.free
def State.modEntry (s : State) (n k : Nat) (f : JEntry → JEntry) : State :=
  s.modCore n (fun c => { c with journal := mapSet c.journal k (f (c.entry k)) })
/-- Lane i's generator (R132); 1 before the first launch (log 1). -/
def Core.gen (c : Core) (i : Nat) : W32 := (mapGet c.gens i).getD 1
/-- A free value's number: every draw is a new one. -/
def State.draw (s : State) : Nat × State := (s.draws, { s with draws := s.draws + 1 })

/-- A free bit of the draw to come, one for each of the things numbered k that it decides. -/
def State.bitAt (s : State) (k : Nat) : Bool := (Config.freeValue (s.draws + 2 ^ 64 * (k + 1))).getLsbD 0

/-! The issuing context. -/

def State.cx (s : State) : Ctx := s.ctx s.cur.core s.cur.ctx
def State.modCx (s : State) (f : Ctx → Ctx) : State := s.modCtx s.cur.core s.cur.ctx f
/-- The quad of the issuing context; for a handler, that of its AWAY context (R191). -/
def State.q (s : State) : Nat := quadOf s.cur.core
/-- The VF register of the issuing context's quad (R79). -/
def State.myVf (s : State) : Nat := (s.quad s.q).vf

/-! Memory by physical address. -/

def State.byte (s : State) (pa : Nat) : Byte := Memory.read s.mem pa
/-- n bytes as a number (R4). -/
def State.peek (s : State) (pa n : Nat) : Nat := leNat (Memory.readBytes s.mem pa n)

/-- The granules that one write of these runs covers wholly are poisoned no more (R204). -/
def unpoison (runs : List (Nat × List Byte)) (p : List Nat) : List Nat :=
  p.filter (fun g =>
    !(granuleBytes g).all (fun a => runs.any (fun r => r.1 ≤ a && a < r.1 + r.2.length)))

/-- One write of bytes at the given places, noted for what the end of the step does about it. -/
def State.store (s : State) (runs : List (Nat × List Byte)) : State :=
  { s with
    mem := runs.foldl (fun m r => Memory.writeBytes m r.1 r.2) s.mem,
    poison := unpoison runs s.poison,
    wrote := s.wrote ++ runs.map (fun r => (r.1, r.2.length)) }

/-- One write of the low n bytes of a number. -/
def State.poke (s : State) (pa n v : Nat) : State := s.store [(pa, toLE n v)]

/-- The byte lies in a poisoned granule (R204). -/
def State.poisoned (s : State) (pa : Nat) : Bool := s.poison.any (fun g => g == granule pa || g == cachedWord pa)
/-- Marks the granule of a byte; of a line that is dirty in a cache, the byte's word (R204). -/
def State.addPoison (s : State) (pa : Nat) (cached : Bool := false) : State :=
  if s.poisoned pa then s else { s with poison := (if cached then cachedWord pa else granule pa) :: s.poison }
/-- A line of HBM or host memory becomes dirty in a cache: poison is told by the cache's granule (R204). -/
def State.poisonByWord (s : State) (line : Nat) : State :=
  if s.poison.contains (64 * line) && (isHbm (64 * line) || isHost (64 * line)) then
    { s with poison := (fromTo 0 8).map (fun j => cachedWord (64 * line + 8 * j)) ++ s.poison.filter (fun g => g != 64 * line) }
  else s
/-- A dirty line is written back: a poisoned word of it marks the line (R204). -/
def State.poisonByLine (s : State) (line : Nat) : State :=
  let inside (g : Nat) : Bool := cachedMark + 64 * line ≤ g && g < cachedMark + 64 * line + 64
  if s.poison.any inside then { s with poison := 64 * line :: s.poison.filter (fun g => !inside g) } else s

/-! Workspaces (R80). -/

/-- First byte of the workspace of context k of core n. -/
def State.wsOf (s : State) (n k : Nat) : Nat := quadLocal (quadOf n) + (s.ctx n k).wsp.toNat % Memory.localSize
/-- First byte of the issuing context's workspace. -/
def State.ws (s : State) : Nat := s.wsOf s.cur.core s.cur.ctx

def hoopOx (c : Core) : Nat := bits c.hoopO.toNat 5 0
def hoopOy (c : Core) : Nat := bits c.hoopO.toNat 12 8
def hoopW (c : Core) : Nat := bits c.hoopS.toNat 6 0
def hoopH (c : Core) : Nat := bits c.hoopS.toNat 12 8
def hoopN (c : Core) : Nat := bits c.hoopS.toNat 20 16

/-- A context has a workspace while it is not FREE, and after its EXIT until its hoop ends (R117). -/
def State.holdsWs (s : State) (n k : Nat) : Bool :=
  (s.ctx n k).st != .free || ((s.core n).hoop.isSome && k < hoopN (s.core n))

/-- Offsets of the protected bytes of a workspace (R81). -/
def protectedOff (r : Nat) : Bool :=
  (0x121C ≤ r && r < 0x1220) || (0x1234 ≤ r && r < 0x1238) || (0x1240 ≤ r && r < 0x1250) ||
  (0x1270 ≤ r && r < 0x1280)
/-- Offsets of the reserved area (R80). -/
def reservedOff (r : Nat) : Bool := 0x1280 ≤ r && r < 0x1400

/-- The workspaces of a quad, as offsets. -/
def State.quadWs (s : State) (q : Nat) : List Nat :=
  (quadCores q).flatMap (fun n =>
    ((fromTo 0 16).filter (fun k => s.holdsWs n k)).map (fun k => (s.ctx n k).wsp.toNat % Memory.localSize))

/-- The byte is a protected byte of some workspace (R81). -/
def State.isProtected (s : State) (pa : Nat) : Bool :=
  isLocal pa && (s.quadWs (localQuad pa)).any (fun w =>
    w ≤ localOff pa && localOff pa < w + 0x1400 && protectedOff (localOff pa - w))
/-- The byte lies in the reserved area of some workspace: reads zero, ignores writes (R80). -/
def State.isReserved (s : State) (pa : Nat) : Bool :=
  isLocal pa && (s.quadWs (localQuad pa)).any (fun w =>
    w ≤ localOff pa && localOff pa < w + 0x1400 && reservedOff (localOff pa - w))
/-- The byte of some workspace's FLAGS that holds PRIV and PK, which no write changes (R91). -/
def State.isModeByte (s : State) (pa : Nat) : Bool :=
  isLocal pa && (s.quadWs (localQuad pa)).any (fun w => localOff pa == w + 0x1242)

/-! Registers of the issuing context (R77, R78). -/

/-- S[n]: s0 reads zero whatever the bytes hold. -/
def State.getS (s : State) (n : BitVec 6) : W64 :=
  if n = 0 then 0 else BitVec.ofNat 64 (s.peek (s.ws + 8 * n.toNat) 8)
/-- S[n] ← v: a write to s0 is dropped. -/
def State.setS (s : State) (n : BitVec 6) (v : W64) : State :=
  if n = 0 then s else s.poke (s.ws + 8 * n.toNat) 8 v.toNat
/-- V[n][i]. -/
def State.getV (s : State) (n : BitVec 5) (i : Nat) : W32 :=
  BitVec.ofNat 32 (s.peek (s.ws + 0x200 + 0x80 * n.toNat + 4 * i) 4)
/-- V[n][i] ← f i in each lane where the mask is set, as one write. -/
def State.setV (s : State) (n : BitVec 5) (mask : W32) (f : Nat → W32) : State :=
  s.store (((fromTo 0 32).filter (fun i => mask.getLsbD i)).map
    (fun i => (s.ws + 0x200 + 0x80 * n.toNat + 4 * i, toLE 4 (f i).toNat)))
/-- P[n]: p7 reads all-ones. -/
def State.getP (s : State) (n : BitVec 3) : W32 :=
  if n = 7 then 0xFFFFFFFF else BitVec.ofNat 32 (s.peek (s.ws + 0x1200 + 4 * n.toNat) 4)
/-- P[n] ← v: a write to p7 has no effect. -/
def State.setP (s : State) (n : BitVec 3) (v : W32) : State :=
  if n = 7 then s else s.poke (s.ws + 0x1200 + 4 * n.toNat) 4 v.toNat

/-- The guard value G (R58). -/
def State.guard (s : State) (g : BitVec 4) : W32 :=
  let p := s.getP (g.extractLsb' 0 3)
  if g.getLsbD 3 then ~~~p else p
/-- G[0] = 1. -/
def State.holds (s : State) (g : BitVec 4) : Bool := (s.guard g).getLsbD 0

/-- A workspace item of the issuing context by offset and size. -/
def State.item (s : State) (off n : Nat) : Nat := s.peek (s.ws + off) n
def State.setItem (s : State) (off n v : Nat) : State := s.poke (s.ws + off) n v

def State.arrival (s : State) (k : Nat) : Nat := s.item (0x1220 + 2 * k) 2
def State.setArrival (s : State) (k v : Nat) : State := s.setItem (0x1220 + 2 * k) 2 v
def State.nrcnt (s : State) : Nat := s.item 0x121C 4
def State.flags (s : State) : W64 := BitVec.ofNat 64 (s.item 0x1240 8)
def State.setFlags (s : State) (v : W64) : State := s.setItem 0x1240 8 v.toNat
/-- FLAGS.PRIV: 1 while AWAY on the service core, whatever has been stored into FLAGS (R91: RO). -/
def State.priv (s : State) : Bool := s.cx.st == .away
/-- FLAGS as stored bytes stand for it: its listed bits, with PRIV and PK, which no write changes, as they were (R7,
R91). -/
def keepFlags (old new : W64) : W64 :=
  setFld (setFld new 23 23 (fld old 23 23)) 21 21 (fld old 21 21)
/-- OR into the sticky FLAGS.FX (R135). -/
def State.addFx (s : State) (fx : Nat) : State :=
  if fx % 32 = 0 then s else s.setFlags (s.flags ||| BitVec.ofNat 64 (fx % 32))
def State.tpc (s : State) : Nat := s.item 0x1270 4
def State.twsp (s : State) : Nat := s.item 0x1274 4
def State.tval (s : State) : Nat := s.item 0x1278 8
/-- MXSCn. -/
def State.mxsc (s : State) (n : Nat) : W64 := BitVec.ofNat 64 (s.item (0x1250 + 8 * n) 8)
/-- ROUND.RM, 1 to 5; what an unassigned value selects is free (R91; log 19). -/
def State.roundMode (s : State) : Nat :=
  let r := s.item 0x1238 8 % 8
  if 1 ≤ r && r ≤ 5 then r else 1 + (Config.unassignedRound (BitVec.ofNat 3 r)).val

/-- The presence bit of a register of a workspace at `ws`: sn at n, vj at 64 + j (R80). -/
def State.presence (s : State) (ws bit : Nat) : Bool := (s.byte (ws + 0x1228 + bit / 8)).getLsbD (bit % 8)
def State.setPresence (s : State) (ws bit : Nat) (b : Bool) : State :=
  let a := ws + 0x1228 + bit / 8
  let old := (s.byte a).toNat
  let cur := old / 2 ^ (bit % 8) % 2
  s.poke a 1 (old - cur * 2 ^ (bit % 8) + (if b then 2 ^ (bit % 8) else 0))

/-! The hoop of a core, and fixed registers (R91). -/

/-- The hoop the issuing context runs in. -/
def State.myHoop (s : State) : Option Nat := (s.core s.cur.core).hoop
def State.myTag (s : State) : W64 :=
  match s.myHoop with
  | some h => match s.hoop h with | some x => x.record.tag | none => 0
  | none => 0
/-- The TAG of a core's hoop (R325), 0 for none. -/
def State.tagOf (s : State) (n : Nat) : W64 :=
  match (s.core n).hoop with
  | some h => match s.hoop h with | some x => x.record.tag | none => 0
  | none => 0
/-- TSTAMP as tile t's unit reads it: the hub's count and a skew of 0 to 4 of the unit's own (R299; log 12). -/
def State.tstamp (s : State) (t : Nat) : W64 := BitVec.ofNat 64 (s.hub.now + (Config.tileSkew t).val)

/-- The bits of FLAGS that R91 lists. -/
def flagsMask : W64 := 0xBFE0001F
/-- MELT.FRAC (R350). -/
def Hub.frac (h : Hub) : Nat := min (h.vat * 65536 / Config.vatFull) 0xFFFF
/-- The voltage of an operating point in mV (R15). -/
def pointMv (p : Nat) : Nat :=
  match p with
  | 0 => 480 | 1 => 515 | 2 => 550 | 3 => 600 | 4 => 650 | _ => 700
/-- The lowest point whose voltage is at least the rail's (R355). -/
def railPoint (mv : Nat) : Nat :=
  if mv ≤ 480 then 0 else if mv ≤ 515 then 1 else if mv ≤ 550 then 2 else if mv ≤ 600 then 3
  else if mv ≤ 650 then 4 else 5

/-- The value MOVC reads from a control register (R79, R89, R91): bits that R91 does not list read zero. A handler
reads CORE, QUAD, TILE, HOOPO, HOOPS and OPPT of its AWAY context's core and quad: R13 gives a service core no place in
the grid, and the manual does not say (DESIGN CHOICE, log 65). -/
def State.control (s : State) (ctl : Nat) : W64 :=
  let n := s.cur.core
  let c := s.core n
  let qd := s.quad s.q
  let nat (v : Nat) : W64 := BitVec.ofNat 64 v
  match ctl with
  | 0 => nat (s.cx.wsp.toNat) &&& 0x1FFC00
  | 1 => nat s.cur.ctx
  | 2 => nat (coreY n * 2 ^ 24 + coreX n * 2 ^ 16 + n)
  | 3 => nat (quadInTile n * 2 ^ 16 + quadOf n)
  | 4 => nat (dieOf n * 2 ^ 16 + tileInDie n * 2 ^ 8 + tileOf n)
  | 5 => nat c.hoopO.toNat
  | 6 => nat c.hoopS.toNat
  | 7 => nat qd.vf
  | 8 => s.tstamp (tileOf n)
  | 9 => if s.priv then nat (s.tile (tileOf n)).cyc else nat c.cyc
  | 10 => setFld (s.flags &&& flagsMask) 23 23 (if s.priv then 1 else 0)
  | 11 => nat (fld s.flags 31 31 * 128 + fld s.flags 29 24)
  | 12 => nat s.tval
  | 13 => nat s.tpc &&& 0x3FFF
  | 14 => nat s.twsp &&& 0x1FFC00
  | 15 => nat s.nrcnt
  | 16 => nat (s.item 0x1234 4) &&& 0x7F
  | 17 => nat (s.item 0x1238 8 % 8)
  | 18 => nat ((s.mxsc 0).toNat % 2 ^ 17)
  | 19 => nat ((s.mxsc 1).toNat % 2 ^ 17)
  | 20 => nat ((s.mxsc 2).toNat % 2 ^ 17)
  | 21 => nat ((s.mxsc 3).toNat % 2 ^ 17)
  | 22 => nat ((if s.hub.meltRfz then 2 ^ 16 else 0) + s.hub.frac)
  | 23 => qd.lease
  | 24 => qd.leaseEnd
  | 25 => nat qd.fduty
  | 26 => nat (railPoint (s.tile (tileOf n)).railMv * 2 ^ 8 + qd.point)
  | 27 => capBase
  | 28 => nat (s.item 0x1248 8) &&& 0x3FFF00003FFF
  | _ => 0

end Sys2Proof.Machine
end

