-- ==== Sys2Proof/Machine/Translate.lean ====
section
/-!
DEFINITION. Translation (R191 to R194, R201 to R203, R258 to R262): windows, TLBs, the four-level walk, and the faults
in their order.
-/

namespace Sys2Proof.Machine

/-- The fields of an attribute word or a local-window entry (R193, R262). -/
def attrOf (w : W64) : Attr :=
  { ord := fld w 15 14, sh := w.getLsbD 13, cmp := w.getLsbD 12, g := fld w 11 8, fmt := w.extractLsb' 0 6 }

/-- R119 and R126 accept the attributes for a page of `size` bytes at a base address. -/
def attrAccepted (a : Attr) (base size : Nat) : Bool :=
  fmtPage a.fmt &&
    (!a.sh || (5 ≤ a.g && a.g ≤ 12 && fmtBytes a.fmt * 2 ^ a.g ≤ size && !base.testBit 47))

/-- A reserved bit or ORD = 3 (R262). -/
def attrWordOk (w : W64) : Bool := fld w 63 16 = 0 && fld w 7 6 = 0 && fld w 15 14 ≠ 3

/-- Entry n of a quad's local-window attribute table; reset 0x4000 (R193). -/
def Quad.attr (q : Quad) (n : Nat) : W64 := (mapGet q.attrs n).getD 0x4000

/-- Who translates: the core whose TLB serves it, its VF, whether it is an engine, whether FLAGS.PRIV holds, and the
quad its local-window addresses name. -/
structure Who where
  core   : Nat
  vf     : Nat
  engine : Bool
  priv   : Bool
  window : Option Nat
  deriving DecidableEq, Repr

/-- What an access does (R203): permissions it needs, whether it reaches local memory through the global window and
the configuration page, whether only attributes are wanted (R213). -/
structure Acc where
  r    : Bool
  w    : Bool
  x    : Bool
  glob : Bool
  cfg  : Bool
  attr : Bool
  deriving DecidableEq, Repr

def accR : Acc := ⟨true, false, false, false, false, false⟩
def accW : Acc := ⟨false, true, false, false, false, false⟩
def accRW : Acc := ⟨true, true, false, false, false, false⟩
def accX : Acc := ⟨false, false, true, false, false, false⟩
def accAttr : Acc := ⟨false, false, false, false, false, true⟩
/-- The access also reaches local memory through the global window. -/
def Acc.global (a : Acc) : Acc := { a with glob := true }
/-- The access also reaches the configuration page. -/
def Acc.config (a : Acc) : Acc := { a with cfg := true }

/-- The issuing context as translator. -/
def State.me (s : State) : Who := ⟨s.cur.core, s.myVf, false, s.priv, some s.q⟩
/-- An engine of core n's tile, for a VF; local-window addresses name the core's quad (R292). -/
def engineOf (n vf : Nat) : Who := ⟨n, vf, true, false, some (quadOf n)⟩
/-- The hub as an engine for a VF. -/
def hubOf (vf : Nat) : Who := ⟨0, vf, true, false, none⟩

/-! The walk (R201, R259 to R262). -/

/-- What a walk finds. -/
inductive Walk where
  | leaf (e : TlbEntry)
  | invalid
  | poison (pa : Nat)
  deriving DecidableEq, Repr

/-- Physical areas that no leaf may map (R343, R374). -/
def State.pinned (s : State) (lo size : Nat) : Bool :=
  s.hub.parts.any (fun p =>
    let r := p.2.record
    let nq := r.quads.length
    let meets (a n : Nat) : Bool := a < lo + size && lo < a + n
    meets r.save (0x100 + nq * 0x248000) || meets r.taskArea (nq * 0x24000))

/-- A leaf of a level, checked (R260). -/
def State.leaf (s : State) (vf va size : Nat) (e : W64) (rootRec : Nat) : Walk :=
  let frame := fld e 51 12 * 4096
  let aw := BitVec.ofNat 64 (s.peek (rootRec + 0x40 + 8 * fld e 57 53) 8)
  let base := va / size * size
  if s.poisoned (rootRec + 0x40 + 8 * fld e 57 53) then .poison (rootRec + 0x40 + 8 * fld e 57 53)
  else if e.getLsbD 52 || fld e 11 9 ≠ 0 || (e.getLsbD 59 && !e.getLsbD 60) || e.getLsbD 62 != frame.testBit 51 ||
      frame % size ≠ 0 || fld e 8 0 > 383 || !attrWordOk aw || !attrAccepted (attrOf aw) base size ||
      s.pinned frame size then .invalid
  else .leaf { vf := vf, base := base, size := size, frame := frame, host := e.getLsbD 62, tr := e.getLsbD 61,
               r := e.getLsbD 60, w := e.getLsbD 59, x := e.getLsbD 58, vft := fld e 8 0, attr := attrOf aw }

/-- The table a pointer names, when its form is right (R259, R260). -/
def nextTable (e : W64) : Option Nat :=
  let a := fld e 51 12 * 4096
  if fld e 62 61 = 0 && fld e 57 52 = 0 && fld e 11 0 = 0 && (isHbm a || isHost a) then some a else none

/-- The levels below the root: (low VA bit, page size of a leaf, whether leaves and pointers may stand there). -/
def levels : List (Nat × Bool × Bool) := [(39, false, true), (30, true, true), (21, true, true), (12, true, false)]

/-- Walks from a table down the levels that remain. -/
def State.walkFrom (s : State) (vf va rootRec : Nat) : List (Nat × Bool × Bool) → Nat → Walk
  | [], _ => .invalid
  | (lo, leaves, pointers) :: rest, table =>
    let idx := if lo = 39 then bits va 55 39 else va / 2 ^ lo % 512
    let pa := table + 8 * idx
    let e : W64 := BitVec.ofNat 64 (s.peek pa 8)
    if s.poisoned pa then .poison pa
    else if !e.getLsbD 63 then .invalid
    else if fld e 60 58 = 0 then
      if pointers then
        match nextTable e with
        | some t => s.walkFrom vf va rootRec rest t
        | none => .invalid
      else .invalid
    else if leaves then s.leaf vf va (2 ^ lo) e rootRec
    else .invalid

/-- The index of a walk below bit `low`. -/
def prefixOf (low va : Nat) : Nat := va % 2 ^ 56 / 2 ^ low

/-- The upper-level entry nearest to the leaf that the hub's walk cache holds for an address of a VF (R187; log 66). -/
def State.cachedTable (s : State) (vf va : Nat) : Option WalkEntry :=
  [21, 30, 39].findSome? (fun low =>
    s.hub.walkCache.find? (fun e => e.vf == vf && e.low == low && e.index == prefixOf low va))

/-- The pointers that a walk passes, as entries for the walk cache. -/
def State.pointersFrom (s : State) (vf va : Nat) : List (Nat × Bool × Bool) → Nat → List WalkEntry
  | [], _ => []
  | (lo, _, pointers) :: rest, table =>
    let e : W64 := BitVec.ofNat 64 (s.peek (table + 8 * (if lo = 39 then bits va 55 39 else va / 2 ^ lo % 512)) 8)
    if e.getLsbD 63 && fld e 60 58 = 0 && pointers then
      match nextTable e with
      | some t => ⟨vf, lo, prefixOf lo va, t⟩ :: s.pointersFrom vf va rest t
      | none => []
    else []

/-- Where a walk of an address begins: the levels that remain and the table, after what the walk cache holds. -/
def State.walkStart (s : State) (vf va recPa : Nat) : List (Nat × Bool × Bool) × Nat :=
  match s.cachedTable vf va with
  | some e => (levels.filter (fun l => l.1 < e.low), e.table)
  | none => (levels, fld (BitVec.ofNat 64 (s.peek recPa 8) : W64) 51 20 * 2 ^ 20)

/-- A page walk for a VF (R201, R261). -/
def State.walk (s : State) (vf va : Nat) : Walk :=
  let root := (s.vf vf).record.root
  let recPa := fld root 51 9 * 512
  let r : W64 := BitVec.ofNat 64 (s.peek recPa 8)
  if !root.getLsbD 63 then .invalid
  else if s.poisoned recPa then .poison recPa
  else if fld r 63 52 ≠ 0 || fld r 19 0 ≠ 0 then .invalid
  else
    let b := s.walkStart vf va recPa
    s.walkFrom vf va recPa b.1 b.2

/-- The walk cache after a walk that found a leaf: the pointers it passed are held (R187; log 66). -/
def State.walked (s : State) (vf va : Nat) : State :=
  let b := s.walkStart vf va (fld (s.vf vf).record.root 51 9 * 512)
  match s.pointersFrom vf va b.1 b.2 with
  | [] => s
  | l => s.modHub (fun h => { h with walkCache := l ++ h.walkCache })

/-! TLBs (R202). -/

/-- The entry of a list that covers an address of a VF. -/
def tlbFind (vf va : Nat) (l : List TlbEntry) : Option TlbEntry :=
  l.find? (fun e => e.vf == vf && e.base ≤ va && va < e.base + e.size)

/-- Adds an entry, the oldest leaving when the list holds `cap` (log 10). -/
def tlbAdd (cap : Nat) (e : TlbEntry) (l : List TlbEntry) : List TlbEntry := (e :: l).take cap

/-- The access of a core's context to a page misses in the core TLB, and in the shared TLB (R202). An engine's accesses
use the shared TLB alone, and so do a handler's: R14 gives a service core its MMU and names no TLB of its own (DESIGN
CHOICE, log 65). -/
def State.missesCore (s : State) (w : Who) (va : Nat) : Bool :=
  !w.engine && !w.priv && (tlbFind w.vf va (s.core w.core).tlb).isNone
def State.missesShared (s : State) (w : Who) (va : Nat) : Bool :=
  (w.engine || w.priv || s.missesCore w va) && (tlbFind w.vf va (s.tile (tileOf w.core)).tlb).isNone

/-- Looks a page up in the core TLB, the shared TLB and by a walk of its own, filling the TLBs on the way (R202). -/
def State.lookupNow (s : State) (w : Who) (va : Nat) : State × Walk :=
  let t := tileOf w.core
  let own := !w.engine && !w.priv
  match (if own then tlbFind w.vf va (s.core w.core).tlb else none) with
  | some e => (s, .leaf e)
  | none =>
    match tlbFind w.vf va (s.tile t).tlb with
    | some e => (if own then s.modCore w.core (fun c => { c with tlb := tlbAdd 64 e c.tlb }) else s, .leaf e)
    | none =>
      match s.walk w.vf va with
      | .leaf e =>
        let s1 := (s.walked w.vf va).modTile t (fun x => { x with tlb := tlbAdd 4096 e x.tlb })
        (if own then s1.modCore w.core (fun c => { c with tlb := tlbAdd 64 e c.tlb }) else s1, .leaf e)
      | r => (s, r)

/-- Walks of a compute die that are in flight, and then those that wait for a walker, in order of request (R202). -/
def State.dieWalks (s : State) (die : Nat) : List WalkReq := s.hub.walks.filter (fun w => dieOf w.core = die)

/-- A walk in flight ends: its translation is cached. -/
def State.endWalk (s : State) (r : WalkReq) : State :=
  ((s.modHub (fun h => { h with walks := h.walks.filter (fun x => x ≠ r) })).lookupNow ⟨r.core, r.vf, false, false, none⟩
    (4096 * r.page)).1

/-- Looks a page up (R202). A walk that finds the die's 64 walkers busy waits in order of request: as one step, the
oldest walks end first. -/
def State.lookup (s : State) (w : Who) (va : Nat) : State × Walk :=
  let l := s.dieWalks (dieOf w.core)
  if l.length ≥ 64 && s.missesShared w va then
    ((l.take (l.length - 63)).foldl (fun t r => t.endWalk r) s).lookupNow w va
  else s.lookupNow w va

/-! One page of an access. -/

/-- Where an address leads, or the cause of R203. -/
inductive Place where
  | at (pa : Nat) (attr : Attr) (tr : Bool)
  | bad (cause : BitVec 6)
  deriving DecidableEq, Repr

/-- The faults of a leaf in the order of R203. Cause 0x15 meets every access of a context to a service core's local
memory through the page tables: R192 states it for the memories of quads only (DESIGN CHOICE, log 75). Cause 0x13 meets
every access of an engine, the adds and reads that R50, R183 and R319 have the hub and the matrix unit make among them:
R203 names the transfer unit, MXFETCH and the matrix fetch unit (DESIGN CHOICE, log 74). -/
def leafPlace (w : Who) (a : Acc) (va : Nat) (e : TlbEntry) : Place :=
  let pa := e.frame + (va - e.base)
  if e.vft ≠ w.vf then .bad 0x12
  else if a.attr then .at pa e.attr e.tr
  else if (a.r && !e.r) || (a.w && !e.w) || (a.x && !e.x) then .bad 0x11
  else if w.engine && a.w && isCfg pa then .bad 0x03
  else if (isLocal pa && !a.glob) || (isCfg pa && !a.cfg) || (isSvc pa && !(w.engine && a.glob)) then .bad 0x15
  else if w.engine && e.host then .bad 0x13
  else if !isBacked pa then .bad 0x16
  else .at pa e.attr e.tr

/-- Translates one address (R191, R203). -/
def State.place (s : State) (w : Who) (a : Acc) (va : Nat) : State × Place :=
  if va ≥ 2 ^ 56 then (s, .bad 0x10)
  else if w.window.isSome && localWin ≤ va && va < localWin + Memory.localSize then
    let q := w.window.getD 0
    let x := va - localWin
    let at' := attrOf ((s.quad q).attr (x / 0x20000))
    if !attrAccepted at' localWin 0x20000 then (s, .bad 0x10)
    else if a.x then (s, .bad 0x11)
    else (s, .at (quadLocal q + x) at' false)
  else if svcWin ≤ va && va < svcWin + 0x100000 then
    if w.priv then (s, .at (svcLocal (tileOf w.core) + (va - svcWin)) ⟨1, false, false, 0, 0⟩ false)
    else (s, .bad 0x10)
  else if capBase.toNat ≤ va && va < capBase.toNat + capSize then
    if a.w || a.x then (s, .bad 0x11) else (s, .at (romBase + (va - capBase.toNat)) ⟨1, false, false, 0, 0⟩ false)
  else
    match s.lookup w va with
    | (s1, .leaf e) => (s1, leafPlace w a va e)
    | (s1, .invalid) => (s1, .bad 0x10)
    | (s1, .poison _) => (s1, .bad 0x3B)

/-! An access of several bytes (R207, R229). -/

/-- One part of an access: bytes of one 4 KiB frame. -/
structure Part where
  pa   : Nat
  va   : Nat
  len  : Nat
  attr : Attr
  deriving DecidableEq, Repr

/-- The parts of n bytes (at most 4,096) from an address on, modulo 2^64. -/
def splitPages (va n : Nat) : List (Nat × Nat) :=
  let first := 4096 - va % 4096
  if n ≤ first then [(va, n)] else [(va, first), ((va + first) % 2 ^ 64, n - first)]

/-- What the translation of a list of pieces gives: the parts, the first fault with its address, a page in transit. -/
structure XOut where
  parts : List Part
  fault : Option (BitVec 6 × Nat)
  tr    : Bool
  deriving DecidableEq, Repr

/-- Translates pieces in order; the first fault counts (R203). -/
def State.xlate (s : State) (w : Who) (a : Acc) : List (Nat × Nat) → State × XOut
  | [] => (s, ⟨[], none, false⟩)
  | (va, len) :: rest =>
    match s.place w a va with
    | (s1, .bad c) => (s1, ⟨[], some (c, va), false⟩)
    | (s1, .at pa attr tr) =>
      let r := s1.xlate w a rest
      (r.1, ⟨⟨pa, va, len, attr⟩ :: r.2.parts, r.2.fault, tr || r.2.tr⟩)

/-- Address and count of each part, for a transfer. -/
def XOut.runs (x : XOut) : List (Nat × Nat) := x.parts.map (fun p => (p.pa, p.len))

/-- The address of an element's scale byte (R127): page base and size from the leaf, or the window entry (R193). -/
def State.scaleAddr (s : State) (w : Who) (va : Nat) (at' : Attr) : Nat :=
  let unit := fmtBytes at'.fmt * 2 ^ at'.g
  if w.window.isSome && localWin ≤ va && va < localWin + Memory.localSize then
    let pb := localWin + (va - localWin) / 0x20000 * 0x20000
    pb + 2 ^ 47 + (va - pb) / unit
  else
    match (s.lookup w va).2 with
    | .leaf e => e.base + 2 ^ 47 + (va - e.base) / unit
    | _ => va

end Sys2Proof.Machine
end

