-- ==== Sys2Proof/Machine/Records.lean ====
section
/-!
DEFINITION. The home of a line (range table, culture, seal and release tag: R255, R267, R268, R270), record rings
(R324 to R326), wakes and crossed targets (R43, R278, R319), the sum of a counter add (R281) and the barrier test (R296).
-/

namespace Sys2Proof.Machine

/-! Cultures of lines (R270, R271). -/

/-- The words of a range entry for one line: those of a RANGESET not yet performed, once the line has changed over
(R274). -/
def RangeEntry.wordsFor (e : RangeEntry) (line : Nat) : W64 × W64 :=
  match e.next with
  | some n => if e.moved.contains line then n else (e.w0, e.w1)
  | none => (e.w0, e.w1)
/-- A pair of range words is valid and covers a line (R270). -/
def coversLine (w : W64 × W64) (line : Nat) : Bool :=
  w.1.getLsbD 63 && fld w.1 51 12 ≤ line / 64 && line / 64 ≤ fld w.2 51 12

/-- The culture slot a line lies under: its valid range entry, else slot 0 (R267). -/
def State.rangeSlot (s : State) (pa : Nat) : Nat :=
  match s.hub.ranges.find? (fun e => coversLine (e.2.wordsFor (lineOf pa)) (lineOf pa)) with
  | some e => fld (e.2.wordsFor (lineOf pa)).1 55 52
  | none => 0

def DirEntry.fresh (slot : Nat) : DirEntry := ⟨slot, 0, [], none, false, none, [], false, [], [], [], [], [], []⟩

/-- A line's directory entry; state 0 where none is kept (R265). -/
def State.dirOf (s : State) (line : Nat) : DirEntry :=
  (mapGet s.hub.dir line).getD (DirEntry.fresh (s.rangeSlot (64 * line)))
def State.setDir (s : State) (line : Nat) (e : DirEntry) : State :=
  s.modHub (fun h => { h with dir := mapSet h.dir line e })

/-- The action words of INV that R267 prints: (I, RD), (S, RDX) and (3, ACK). -/
def invWord (st ev : Nat) : Option W32 :=
  if st = 0 && ev = 0 then some 0x18014001 else if st = 1 && ev = 1 then some 0x3200B001
  else if st = 3 && ev = 14 then some 0x24010001 else none

/-- States of a stock culture, and the first of its transients, by the order in which R267 names them (log 14). -/
def stockStates (slot : Nat) : Nat :=
  match slot with
  | 0 => 6 | 3 => 5 | 4 => 7 | 6 => 5 | _ => 4
def firstTransient (slot : Nat) : Nat := if slot = 4 then 4 else if slot = 1 || slot = 2 || slot = 5 then 2 else 3

/-- A write, AMO or RED, of the device or of the host (R263). -/
def isWriteEvent (ev : Nat) : Bool := 1 ≤ ev && ev < 8 && ev ≠ 5

/-- DACT as R267 states it for a stock culture in a state that is not transient: UPD writes at the home, a SEALED line
refuses, PRIV merges its masks, a write registers its words under WOWN, ACC merges its buffers. -/
def stockDact (slot st ev : Nat) : Option Nat :=
  match slot with
  | 1 => if ev = 1 || ev = 2 || ev = 6 then some 2 else none
  | 3 => if st = 2 && isWriteEvent ev then some 8 else none
  | 4 => if st = 3 && (ev = 0 || ev = 5 || ev = 12 || ev = 13) then some 6 else none
  | 5 => if ev = 1 || ev = 2 then some 7 else none
  | 6 => if st = 2 && (ev = 0 || ev = 3 || (5 ≤ ev && ev < 8) || (10 ≤ ev && ev < 14)) then some 4 else none
  | _ => none

/-- The message bits of a stock word (27 to 20, R264) that R267 sets and clears: UPD to every sharer, a SEALED line's
grants and messages of network 1 away, FWD to a registrant. -/
def stockSends (slot st ev v : Nat) : Nat :=
  if slot = 1 && (ev = 1 || ev = 2 || ev = 6) then v / 8 * 8 + 4 + v % 4
  else if slot = 3 && st = 2 && isWriteEvent ev then bits v 1 1 * 2
  else if slot = 5 && st = 1 && (ev = 0 || ev = 5) then v / 16 * 16 + 8 + v % 8
  else v

/-- NEXT as R267 states it: UPD waits for the answers, SEALED stays, a write registers, RED accumulates. -/
def stockNext (slot st ev v : Nat) : Nat :=
  if slot = 1 && (ev = 1 || ev = 2 || ev = 6) then 2 + v % 2
  else if slot = 3 && st = 2 && isWriteEvent ev then 2
  else if slot = 5 && (ev = 1 || ev = 2) then 1
  else if slot = 6 && st ≠ 1 && ev = 4 then 2
  else v % stockStates slot

/-- The message bits that an event of network 2 leaves of bits 27 to 20 (R266 checks 5 and 6): no message of network 1, and
in a transient state data at ACK and DATA only. -/
def net2Sends (trans : Bool) (ev v : Nat) : Nat :=
  if ev = 8 || ev = 9 then (if trans then bits v 1 0 else bits v 7 6 * 64 + bits v 1 0)
  else if ev = 14 || ev = 15 then bits v 7 6 * 64 + bits v 1 0
  else v

/-- The action word of a stock culture: as R267 prints or states it; else free but for what R264 to R266 state of every
accepted word: DEF, the reserved bits, NEXT below NS, an assigned DACT, WAITACK with UPD, RTY in a transient state
only and for every event of network 0, the messages of network 2 and a way out at ACK and DATA (log 14). -/
def stockWord (slot st ev : Nat) : W32 :=
  if st ≥ stockStates slot then 0
  else match (if slot = 0 then invWord st ev else none) with
    | some w => w
    | none =>
      let e := if slot = 2 && ev = 0 then 1 else ev
      let v := (Config.stockAction slot st e).toNat
      if firstTransient slot ≤ st then
        if ev < 8 || (10 ≤ ev && ev < 14) then BitVec.ofNat 32 (st * 2 ^ 28 + 2 ^ 20 + 1)
        else
          let next := bits v 31 28 % (if ev ≥ 14 then firstTransient slot else stockStates slot)
          BitVec.ofNat 32 (next * 2 ^ 28 + net2Sends true ev (bits v 27 20) * 2 ^ 20 + bits v 19 16 % 9 * 2 ^ 16 + bits v 15 12 * 2 ^ 12 + 1)
      else
        let low := if slot = 1 && (ev = 1 || ev = 2 || ev = 6) then bits v 14 14 * 4 + 1
          else if slot = 3 && st = 2 && isWriteEvent ev then 0 else bits v 15 12
        BitVec.ofNat 32 (stockNext slot st ev (bits v 31 28) * 2 ^ 28 + stockSends slot st ev (net2Sends false ev (bits v 27 21 * 2)) * 2 ^ 20 +
          (stockDact slot st ev).getD (bits v 19 16 % 9) * 2 ^ 16 + low * 2 ^ 12 + 1)

/-- The state word of a stock culture (R265, R267): MERGE, TRANS, HOME. -/
def stockStateWord (slot st : Nat) : Nat :=
  if st ≥ stockStates slot then 0
  else
    (if (slot = 4 && st = 3) || (slot = 5 && st = 1) || (slot = 6 && st = 2) then 2 ^ 15 else 0) +
      (if firstTransient slot ≤ st then 2 ^ 14 else 0) + (if st = 0 || (slot = 3 && st = 2) then 2 ^ 13 else 0)

/-- A byte of the image of a stock culture (R265, R267). -/
def stockByte (slot off : Nat) : Byte :=
  if off = 0 then BitVec.ofNat 8 (stockStates slot)
  else if 8 ≤ off && off < 0x10 then BitVec.ofNat 8 ((Config.stockName slot).toNat / 256 ^ (off - 8))
  else if 0x10 ≤ off && off < 0x30 then BitVec.ofNat 8 (stockStateWord slot ((off - 0x10) / 2) / 256 ^ (off % 2))
  else if 0x40 ≤ off && off < 0x440 then
    BitVec.ofNat 8 ((stockWord slot ((off - 0x40) / 64) (off % 64 / 4)).toNat / 256 ^ (off % 4))
  else 0

/-- The action word of (slot, state, event) (R264, R267). -/
def State.actionWord (s : State) (slot st ev : Nat) : W32 :=
  if slot < 7 then stockWord slot st ev
  else
    match mapGet s.hub.cultures slot with
    | some c => (mapGet c.actions (16 * st + ev)).getD 0
    | none => 0

/-- DACT of an action word (R264). -/
def dact (w : W32) : Nat := bits w.toNat 19 16
/-- Bit b of an action word (R264). -/
def actBit (w : W32) (b : Nat) : Bool := w.getLsbD b

/-- A state of a culture is TRANS (R265): by the state word of a loaded image. -/
def State.transient (s : State) (slot st : Nat) : Bool :=
  if slot < 7 then firstTransient slot ≤ st && st < stockStates slot
  else match mapGet s.hub.cultures slot with
    | some c => ((mapGet c.states st).getD 0).getLsbD 14
    | none => false

/-- The state of a line once the wait it may be in has ended: DATA where it is owed, then ACK. -/
def State.restState (s : State) (slot : Nat) : Nat → Nat → Bool → Nat
  | 0, st, _ => st
  | n + 1, st, owed =>
    if s.transient slot st || owed then s.restState slot n (bits (s.actionWord slot st (if owed then 15 else 14)).toNat 31 28) false
    else st

/-- A state of a loaded culture is a MERGE state (R265). -/
def State.mergeState (s : State) (slot st : Nat) : Bool :=
  match mapGet s.hub.cultures slot with
  | some c => ((mapGet c.states st).getD 0).getLsbD 15
  | none => false

/-- Of a request at a line's home, whether some action that serves it, up to the end of the wait that it enters, has one
of the given DACTs or leads to a MERGE state (R264, R265). -/
def State.acts (s : State) (slot : Nat) (hit : List Nat) : Nat → Nat → Bool → Nat → Bool
  | 0, _, _, _ => false
  | n + 1, st, owed, ev =>
    let w := s.actionWord slot st ev
    let next := bits w.toNat 31 28
    let due := actBit w 24 || actBit w 23 || (owed && ev ≠ 15)
    hit.contains (dact w) || s.mergeState slot next ||
      ((s.transient slot next || due) && s.acts slot hit n next due (if due then 15 else 14))

/-- The home of a byte takes the bytes of a write of an event, performs its atomic or lets its private buffer hold it:
under a stock culture by what R267 states, under a loaded one where an action says so (R264): DACT 2, of an atomic DACT 3,
of a device's write DACT 7 too, or a MERGE state. A cached store (RDX) writes the copy that the participant holds. -/
def State.takes (s : State) (pa ev : Nat) : Bool :=
  let slot := s.rangeSlot pa
  if !(isHbm pa || isHost pa) || slot < 7 || ev = 1 then true
  else
    let e := s.dirOf (lineOf pa)
    s.acts slot (if ev = 3 || ev = 4 || ev = 7 then [3] else [2, 7]) 4 (s.restState slot 4 e.state e.dataDue) false ev

/-- The home refuses a write of an event to the line (R268): a sealed WONCE line, or DACT 8 of a loaded culture. -/
def State.refuses (s : State) (pa ev : Nat) : Bool :=
  if isHbm pa || isHost pa then
    let e := s.dirOf (lineOf pa)
    let slot := s.rangeSlot pa
    if slot = 3 then e.sealed
    else slot ≥ 7 && dact (s.actionWord slot (s.restState slot 4 e.state e.dataDue) ev) = 8
  else false

/-- The lines of some runs. -/
def linesOf (runs : List (Nat × Nat)) : List Nat :=
  (runs.flatMap (fun r => fromTo (lineOf r.1) (lineOf (r.1 + r.2 - 1) + 1 - lineOf r.1))).dedup

/-- The entry of a line that its first write seals (R267): SEALED, when no copy is left. -/
def DirEntry.seal (e : DirEntry) : DirEntry :=
  { e with sealed := true, state := if e.sharers.isEmpty && e.owner.isNone then 2 else e.state }

/-- A performed write seals each WONCE line it meets (R267) and clears the release tags of its lines (R255). -/
def State.written (s : State) (runs : List (Nat × Nat)) : State :=
  let ls := (linesOf runs).filter (fun l => isHbm (64 * l) || isHost (64 * l))
  let s1 := ls.foldl (fun t l =>
    if t.rangeSlot (64 * l) = 3 then t.setDir l (t.dirOf l).seal else t) s
  if s1.hub.tags.isEmpty then s1 else s1.modHub (fun h => { h with tags := ls.foldl (fun m l => mapErase m l) h.tags })

/-! Rings (R324). -/

/-- The rings: a VF's fault queue and host wake ring, a partition's event queue. -/
inductive RingRef where
  | fault (vf : Nat)
  | host (vf : Nat)
  | event (part : Nat)
  deriving DecidableEq, Repr

/-- The key of a wake (R278). -/
structure WakeKey where
  vf   : Nat
  va   : Nat
  loc  : Bool
  quad : Nat
  deriving DecidableEq, Repr

/-- What an access of the hub to a ring sets off: a wake on a key, a write of bytes that entries may watch, a poisoned
word met (R204, R278, R324). -/
inductive Wake where
  | key (k : WakeKey)
  | seen (vf pa va len : Nat)
  | bad (vf va : Nat)
  deriving DecidableEq, Repr

/-- Physical address of a virtual address of a VF for the hub's own accesses (R324). -/
def State.hubPa (s : State) (vf va : Nat) : Option Nat :=
  match s.walk vf va with
  | .leaf e => if e.vft = vf && isBacked (e.frame + (va - e.base)) then some (e.frame + (va - e.base)) else none
  | _ => none

/-- Where byte `off` of a ring lies. -/
def State.ringPa (s : State) (r : RingRef) (off : Nat) : Option Nat :=
  match r with
  | .fault v => if (s.vf v).record.fring = 0 then none else s.hubPa v ((s.vf v).record.fring.toNat + off)
  | .host v => if (s.vf v).record.hwring = 0 then none else s.hubPa v ((s.vf v).record.hwring.toNat + off)
  | .event p => if (s.part p).record.evring = 0 then none else some ((s.part p).record.evring + off)

def State.ringHeld (s : State) (r : RingRef) : List (List Byte) :=
  match r with
  | .fault v => (s.vf v).fault.held
  | .host v => (s.vf v).host.held
  | .event p => (s.part p).event.held

def State.setRingHeld (s : State) (r : RingRef) (l : List (List Byte)) : State :=
  match r with
  | .fault v => s.modVf v (fun x => { x with fault := ⟨l⟩ })
  | .host v => s.modVf v (fun x => { x with host := ⟨l⟩ })
  | .event p => s.modPart p (fun x => { x with event := ⟨l⟩ })

/-- The VF of a ring and the virtual address of its first byte; an event queue lies at a physical address (R324). -/
def State.ringVa (s : State) (r : RingRef) : Option (Nat × Nat) :=
  match r with
  | .fault v => some (v, (s.vf v).record.fring.toNat)
  | .host v => some (v, (s.vf v).record.hwring.toNat)
  | .event _ => none

/-- What the hub's write of len bytes at an offset of a ring sets off (R278). -/
def State.ringSeen (s : State) (r : RingRef) (pa off len : Nat) : List Wake :=
  match s.ringVa r with
  | some (v, base) => [.seen v pa (base + off) len]
  | none => []

/-- What the wake on PROD of a ring is (R324 step 3). -/
def State.ringKey (s : State) (r : RingRef) : List Wake :=
  match s.ringVa r with
  | some (v, base) => [.key ⟨v, base, false, 0⟩]
  | none => []

/-- A poisoned word that the hub meets at the head of a ring: of a VF's host wake ring a record tells (log 21). -/
def State.ringBad (s : State) (r : RingRef) : List Wake :=
  match r with
  | .host v => [.bad v ((s.vf v).record.hwring.toNat + 8)]
  | _ => []

/-- The first 32 bytes of a ring hold poison: PROD, CONS, DROP, LOG2N (R204). -/
def State.ringPoisoned (s : State) (h : Nat) : Bool :=
  [h, h + 8, h + 0x18].any (fun a => s.poisoned a)

/-- Writes a record where the ring has room, then PROD; `none` where it is full. A ring whose memory cannot be reached
takes nothing, and one whose head is poisoned counts as full (R204; log 21). -/
def State.ringWrite (s : State) (r : RingRef) (bytes : List Byte) : Option (State × List Wake) :=
  match s.ringPa r 0 with
  | none => some (s, [])
  | some h =>
    let prod := s.peek h 8
    let cons := s.peek (h + 8) 8
    let cap := 2 ^ (s.peek (h + 0x18) 1)
    if (prod + 2 ^ 64 - cons) % 2 ^ 64 < cap && !s.ringPoisoned h then
      let off := 0x40 + 64 * (prod % cap)
      match s.ringPa r off with
      | some a =>
        some (((s.store [(a, bytes)]).poke h 8 ((prod + 1) % 2 ^ 64)).written [(a, bytes.length), (h, 8)],
          s.ringSeen r a off bytes.length ++ s.ringKey r)
      | none => some (s, [])
    else none

/-- One more lost record (R324). -/
def State.ringDrop (s : State) (r : RingRef) : State × List Wake :=
  match s.ringPa r 0x10 with
  | some a => ((s.poke a 8 ((s.peek a 8 + 1) % 2 ^ 64)).written [(a, 8)], s.ringSeen r a 0x10 8)
  | none => (s, [])

/-- What a ring that takes no record reports of its poisoned head (R204). -/
def State.ringMet (s : State) (r : RingRef) : List Wake :=
  match s.ringPa r 0 with
  | some h => if s.ringPoisoned h then s.ringBad r else []
  | none => []

/-- A record for a ring: written, held (up to 16), or lost (R324), with what that sets off. -/
def State.ringPut (s : State) (r : RingRef) (bytes : List Byte) : State × List Wake :=
  let held := s.ringHeld r
  if held.isEmpty then
    match s.ringWrite r bytes with
    | some x => x
    | none => (s.setRingHeld r [bytes], s.ringMet r)
  else if held.length < 16 then (s.setRingHeld r (held ++ [bytes]), [])
  else s.ringDrop r

/-! Wakes (R43, R277, R278, R287, R369). -/

def WaitEntry.hasKey (e : WaitEntry) (k : WakeKey) : Bool :=
  e.va == k.va && e.loc == k.loc && (if k.loc then e.quad == k.quad else true) && e.vf == k.vf

/-- The context that waits on an entry, of the hoop that set it (R342), is parked on it. -/
def State.parkedOn (s : State) (e : WaitEntry) : Bool :=
  match e.waiter with
  | .ctx n k =>
    (s.ctx n k).st == .parked && (s.core n).hoop == e.hoop &&
      (match (s.ctx n k).park with | .watch a => a.toNat == e.asked | _ => false)
  | .host _ => false

/-- The context leaves PARKED for READY (R43, R44). -/
def State.reinsert (s : State) (n k : Nat) : State :=
  s.modCtx n k (fun x => if x.st = .parked then { x with st := .ready, park := .none, past := [] } else x)

/-- The record of a host wake (R369). -/
def hostWakeRecord (s : State) (e : WaitEntry) (token : Nat) : List Byte :=
  toLE 8 s.hub.now ++ toLE 8 e.va ++ toLE 2 token ++ toLE 2 e.vf ++ toLE 44 0

/-- Delivers a wake to every entry that `hit` picks, each as one step (R278, R369); what the writes of host wake rings
set off comes back. -/
def State.wakeStep (s : State) (hit : WaitEntry → Bool) : State × List Wake :=
  let hits := s.hub.waits.filter hit
  let keep := s.hub.waits.filterMap (fun e =>
    if hit e then
      match e.waiter with
      | .host _ => none
      | .ctx _ _ => some (if s.parkedOn e then e else { e with latch := true })
    else some e)
  let s1 := s.modHub (fun h => { h with waits := keep })
  hits.foldl (fun acc e =>
    match e.waiter with
    | .ctx n k => if s.parkedOn e then (acc.1.reinsert n k, acc.2) else acc
    | .host token =>
      let r := acc.1.ringPut (.host e.vf) (hostWakeRecord s e token)
      (r.1.send (.msi e.vf (token % 16)), acc.2 ++ r.2)) (s1, [])

/-- An entry watches a word that a run of bytes touches (R278). -/
def WaitEntry.touched (e : WaitEntry) (vf pa va len : Nat) : Bool :=
  if isLocal pa then
    e.loc && e.quad == localQuad pa && e.va < localWin + localOff pa + len && localWin + localOff pa < e.va + 8
  else !e.loc && e.vf == vf && e.va < va + len && va < e.va + 8

/-- SRC of a record (R325). -/
def srcCtx (n k : Nat) : Nat := 16 * n + k
def srcCopy (id : Nat) : Nat := 2 ^ 60 + id
def srcMatrix (q : Nat) : Nat := 2 * 2 ^ 60 + q
def srcHub : Nat := 3 * 2 ^ 60

/-- A fault-queue record of a VF goes to its ring; every record takes the next SEQ (R325). -/
def State.faultPut (s : State) (vf : Nat) (cause : BitVec 6) (va sect : Nat) (tag : W64) (src : Nat)
    (detail0 detail1 : Nat) : State × List Wake :=
  let seq := (s.vf vf).seq
  let bytes := toLE 8 s.hub.now ++ toLE 8 va ++ toLE 8 sect ++ toLE 8 tag.toNat ++ toLE 8 src ++ toLE 2 vf ++
    toLE 1 cause.toNat ++ toLE 1 0 ++ toLE 4 seq.toNat ++ toLE 8 detail0 ++ toLE 8 detail1
  (s.modVf vf (fun x => { x with seq := x.seq + 1 })).ringPut (.fault vf) bytes

/-- One of the things that accesses of the hub set off: a wake on a key, the MODE 2 entries of a write, the record of a
poisoned word. -/
def State.wakeOne (s : State) : Wake → State × List Wake
  | .key k => if s.hub.waits.isEmpty then (s, []) else s.wakeStep (fun e => e.hasKey k)
  | .seen vf pa va len =>
    if s.hub.waits.isEmpty then (s, []) else s.wakeStep (fun e => e.mode == 2 && e.touched vf pa va len)
  | .bad vf va => s.faultPut vf 0x3B va 0 0 srcHub 0 0

/-- These things one after the other, with those that ring writes add: each write of a host wake ring takes an entry
away, so there are no more steps than the bound. -/
def State.wakeGo : Nat → List Wake → State → State
  | 0, _, s => s
  | _, [], s => s
  | n + 1, k :: ks, s =>
    let r := s.wakeOne k
    State.wakeGo n (ks ++ r.2) r.1

/-- A list of such things with all that follows from it. -/
def State.wakeAll (s : State) (l : List Wake) : State := State.wakeGo (l.length + 4 * s.hub.waits.length + 4) l s

/-- A WAKE on a key (R287). -/
def State.wakeKey (s : State) (k : WakeKey) : State := s.wakeAll [.key k]

/-- A record for a VF's ring or a partition's event queue, with its wake on PROD (R324). -/
def State.record (s : State) (r : RingRef) (bytes : List Byte) : State :=
  let x := s.ringPut r bytes
  x.1.wakeAll x.2

/-! Fault-queue and event records (R325, R326). -/

/-- Writes a fault-queue record of a VF, with its wake. -/
def State.faultRecord (s : State) (vf : Nat) (cause : BitVec 6) (va sect : Nat) (tag : W64) (src : Nat)
    (detail0 detail1 : Nat) : State :=
  let x := s.faultPut vf cause va sect tag src detail0 detail1
  x.1.wakeAll x.2

/-- Writes an event record to a partition's queue (R326, R361); DETAIL is 48 bytes from 0x10. -/
def State.eventRecord (s : State) (part kind quad vf : Nat) (detail : List Byte) : State :=
  s.record (.event part)
    (toLE 8 s.hub.now ++ toLE 2 kind ++ toLE 2 quad ++ toLE 2 vf ++ toLE 2 0 ++ detail ++ toLE (48 - detail.length) 0)

/-- An event record about a quad, to the partition that owns it. -/
def State.quadEvent (s : State) (q kind : Nat) (detail : List Byte) : State :=
  match (s.quad q).part with
  | some p => s.eventRecord p kind q (s.quad q).vf detail
  | none => s

/-- An event record about the package, to every partition's queue (R361). -/
def State.packageEvent (s : State) (kind : Nat) (detail : List Byte) : State :=
  s.hub.parts.foldl (fun t p => t.eventRecord p.1 kind 0xFFFF 0xFFFF detail) s

/-! What a performed write or add sets off (R278, R296, R319). -/

/-- Every context listed, with its place. -/
def State.allCtxs (s : State) : List (Nat × Nat × Ctx) :=
  s.cores.flatMap (fun c => c.2.ctxs.map (fun x => (c.1, x.1, x.2)))

/-- Physical address of an address as a context of core n sees it, with no check of rights. -/
def State.seenAt (s : State) (n va : Nat) : Option Nat :=
  if localWin ≤ va && va < localWin + Memory.localSize then some (quadLocal (quadOf n) + (va - localWin))
  else match s.walk (s.quad (quadOf n)).vf va with
    | .leaf e => some (e.frame + (va - e.base))
    | _ => none

/-! The task area (R318, R374). -/

/-- The 144 bytes of a continuation record (R318). -/
def Cont.bytes (c : Cont) : List Byte :=
  toLE 8 c.pc.toNat ++ toLE 8 c.mask.toNat ++ (fromTo 0 16).flatMap (fun i => toLE 8 ((c.values[i]?).getD 0).toNat)

/-- First byte of a hoop's region of its partition's task area: that of its origin core (R374). -/
def State.taskRegion (s : State) (x : Hoop) : Nat :=
  let r := (s.part (s.vf x.record.vf).record.part).record
  let before := (r.quads.flatMap quadCores).filter (fun n => n < coreAt x.ox x.oy)
  r.taskArea + 0x9000 * before.length

/-- The continuation at a place of a hoop's region: its PC, its MASK and the values of the registers MASK marks. -/
def State.contAt (s : State) (x : Hoop) (place : Nat) : Cont :=
  let a := s.taskRegion x + 144 * place
  let mask : W64 := BitVec.ofNat 64 (s.peek (a + 8) 8)
  let n := ((fromTo 1 63).filter (fun i => mask.getLsbD i)).length
  ⟨BitVec.ofNat 14 (s.peek a 8), mask, (fromTo 0 (min n 16)).map (fun i => BitVec.ofNat 64 (s.peek (a + 0x10 + 8 * i) 8))⟩

/-- The first place of a region that no record of the queue takes (R374: placement is the hub's). -/
def Hoop.freePlace (x : Hoop) : Nat := ((fromTo 0 256).find? (fun i => !x.pushed.contains i)).getD 0

/-- A record written into a hoop's region and last in its queue. -/
def State.putCont (s : State) (h : Nat) (c : Cont) : State :=
  match s.hoop h with
  | some x =>
    let a := s.taskRegion x + 144 * x.freePlace
    ((s.store [(a, c.bytes)]).written [(a, 144)]).modHoop h (fun y => { y with pushed := y.pushed ++ [x.freePlace] })
  | none => s

/-- Pushes a continuation onto its hoop's task queue; one of a stopped hoop waits for the resume (R319, R331). -/
def State.pushCont (s : State) (h : Nat) (c : Cont) : State :=
  match s.hoop h with
  | some x =>
    if x.state = .switched then s.modHoop h (fun y => { y with crossed := y.crossed ++ [c] })
    else (s.modHoop h (fun y => { y with reserved := y.reserved - 1 })).putCont h c
  | none => s

/-- A write performed on words that `touch` tells: their MODE 2 entries are woken (R278). -/
def State.writeSeen (s : State) (touch : WaitEntry → Bool) : State :=
  if s.hub.waits.isEmpty then s
  else
    let r := s.wakeStep (fun e => e.mode == 2 && touch e)
    r.1.wakeAll r.2

/-- A write performed by an agent of a VF. -/
def State.noteWrite (s : State) (vf : Nat) (segs : List Seg) : State :=
  s.writeSeen (fun e => segs.any (fun g => e.touched vf g.pa g.va g.bytes.length))

/-- An add performed on the 8-byte word at pa, whose entries `touch` tells: MODE 2 entries, MODE 1 entries whose target
it crosses, parked PARK.ge and registered continuations (R43, R278, R319). -/
def State.addSeen (s : State) (touch : WaitEntry → Bool) (pa old new : Nat) : State :=
  let crosses (t : W64) : Bool := old < t.toNat && t.toNat ≤ new
  let s1 :=
    if s.hub.waits.isEmpty then s
    else
      let r := s.wakeStep (fun e => (e.mode == 2 || (e.mode == 1 && crosses e.target)) && touch e)
      r.1.wakeAll r.2
  let s2 := s1.allCtxs.foldl (fun t c =>
    match c.2.2.park with
    | .ge a tg false =>
      if c.2.2.st = .parked && crosses tg && s1.seenAt c.1 a.toNat == some pa then t.reinsert c.1 c.2.1 else t
    | _ => t) s1
  let hit (u : Susp) : Bool := u.registered == some pa && crosses u.target
  let s3 := s2.modHub (fun h => { h with susps := h.susps.filter (fun u => !hit u) })
  (s2.hub.susps.filter hit).foldl (fun t u => t.pushCont u.hoop u.record) s3

/-- An add performed by an agent of a VF. -/
def State.noteAdd (s : State) (vf pa va old new : Nat) : State := s.addSeen (fun e => e.touched vf pa va 8) pa old new

/-- The barrier test at the record whose phase word lies at `a` (R296): the bytes that end a phase, PHASE + 1 and ARR 0;
they never reach a protected byte (R81). -/
def State.phaseEnd (s : State) (a : Nat) : Option (List Byte) :=
  let w := s.peek a 8
  let arr := bits w 47 32
  let need := bits w 31 16
  if arr = need && need ≠ 0 && s.peek (a + 8) 8 = 0 && !(fromTo (a + 4) 4).any (fun b => s.isProtected b) then
    some (toLE 4 ((bits w 63 48 + 1) % 2 ^ 16 * 2 ^ 16))
  else none

/-- The barrier test after an arrival, whose own write wakes the watchers. -/
def State.barrierStep (s : State) (a : Nat) : State :=
  match s.phaseEnd a with
  | some b => s.store [(a + 4, b)]
  | none => s

/-- The barrier test after an add to the byte word: a phase that ends is a write of the phase word (R278). -/
def State.barrierTest (s : State) (a : Nat) : State :=
  match s.phaseEnd a with
  | some b => (s.store [(a + 4, b)]).noteWrite 0 [⟨a + 4, 0, b⟩]
  | none => s

/-- The new value of a counter add (R281). -/
def counterSum (old amount : Nat) : Nat :=
  let x : Int := if old < 2 ^ 63 then old else (old : Int) - 2 ^ 64
  let y := min (x + amount) (2 ^ 63 - 1)
  (y % 2 ^ 64).toNat

end Sys2Proof.Machine
end

