-- ==== Sys2Proof/Machine/Operands.lean ====
section
/-!
DEFINITION. Operand forms: prefixes and the immediates they widen (R63 to R71), which prefix a target accepts (R66,
R71, R142, R206, R236, R282, R311), and the registers an instruction reads through its fields (R84, R400).
-/

namespace Sys2Proof.Machine

/-! PC arithmetic within a slot (R64). -/

def pcSlot (p : PCVal) : Nat := p.toNat / 1024
def pcWord (p : PCVal) : Nat := p.toNat % 1024
/-- Word (own word + off) mod 1,024 of the same slot. -/
def pcAdd (p : PCVal) (off : Int) : PCVal :=
  BitVec.ofNat 14 (pcSlot p * 1024 + (((pcWord p : Int) + off) % 1024).toNat)
/-- A PC value in a scalar register (R106). -/
def pcReg (p : PCVal) : W64 := p.zeroExtend 64

/-- The PC of the word that issues: the chain's first word and one for each prefix issued. -/
def State.wordPc (s : State) : PCVal := pcAdd s.cx.pc s.cx.chain.length
/-- nextPC (R77). -/
def State.nextPc (s : State) : PCVal := pcAdd s.wordPc 1

/-! The chain of the issuing target. -/

/-- Payloads of the chain's IMMs, first first. -/
def chainImms (c : List Instr) : List (BitVec 26) :=
  c.filterMap (fun i => match i with | .imm p => some p | _ => none)
/-- The immediate of a field of w bits (R68). -/
def immOf (c : List Instr) (w : Nat) (field : Nat) : W64 :=
  match chainImms c with
  | [] => BitVec.ofInt 64 (BitVec.ofNat w field).toInt
  | [p] => BitVec.ofInt 64 (BitVec.ofNat (26 + w) (p.toNat * 2 ^ w + field)).toInt
  | f :: p :: _ => BitVec.ofInt 64 (BitVec.ofNat (52 + w) ((f.toNat * 2 ^ 26 + p.toNat) * 2 ^ w + field)).toInt
/-- The immediate of the issuing instruction. -/
def State.imm (s : State) {w : Nat} (field : BitVec w) : W64 := immOf s.cx.chain w field.toNat

/-- The chain's MOD: RM, SAT, CACHE; zeros without one (R71). -/
def chainMod (c : List Instr) : Nat × Bool × Nat :=
  match c.find? (fun i => match i with | .mod _ _ _ => true | _ => false) with
  | some (.mod m sat ca) => (m.toNat, sat == 1, ca.toNat)
  | _ => (0, false, 0)
def State.modRm (s : State) : Nat := (chainMod s.cx.chain).1
def State.sat (s : State) : Bool := (chainMod s.cx.chain).2.1
/-- The rounding mode in force: MOD.RM if nonzero, else ROUND.RM (R131). -/
def State.rm (s : State) : Nat := if s.modRm = 0 then s.roundMode else s.modRm

/-- The ONNR target of a chain whose first word lies at pc (R69). -/
def onnrTarget (pc : PCVal) (c : List Instr) : Option PCVal :=
  match c with
  | [.onnr o] => some (pcAdd pc o.toInt)
  | [.onnr o, _] => some (pcAdd pc o.toInt)
  | [_, .onnr o] => some (pcAdd (pcAdd pc 1) o.toInt)
  | _ => none
def State.onnr (s : State) : Option PCVal := onnrTarget s.cx.pc s.cx.chain

end Sys2Proof.Machine

namespace Sys2Proof

/-! Acceptance of prefixes. -/

/-- The would-block instructions (R38). -/
def Instr.wouldBlock : Instr → Bool
  | .ntake _ _ _ _ | .nput _ _ _ _ _ _ | .ld _ _ _ _ _ | .vld _ _ _ _ | .vlds _ _ _ _ | .vldx _ _ _ _
  | .acqld _ _ _ _ _ | .lda _ _ _ _ _ _ | .vlda _ _ _ _ _ | .ldl _ _ _ _ _ | .stl _ _ _ _ _ | .st _ _ _ _ _
  | .vst _ _ _ _ | .vsts _ _ _ _ | .vstx _ _ _ _ | .relst _ _ _ _ _ | .pst _ _ _ _ | .amo _ _ _ _ _ _
  | .red _ _ _ _ _ | .tladd _ _ _ _ | .bara _ _ _ _ | .flush _ _ | .fence _ _ | .cfetch _ _ _ | .jseg _ _
  | .waitge _ _ _ _ | .barw _ _ _ | .waita _ _ | .watch _ _ _ _ | .wake _ _ | .cpgo _ _ | .cppb _ _ _
  | .send _ _ _ | .recv _ _ _ | .pipeput _ _ _ | .pipeget _ _ _ | .taskpush _ _ | .susp _ _ _ | .taskpop _
  | .launch _ _ _ | .sysc _ _ | .syscNb _ _ _ | .mxmul _ _ _ _ | .mxmuls _ _ _ _ | .mxrd _ _ _ | .mxwr _ _ _
  | .mxzero _ _ | .mxdrain _ _ | .mxfetch _ _ _ | .mxprog _ _ _ | .mxdef _ | .mxcmd _ _ _ | .sprint _ _ _
  | .cultld _ _ _ | .rangeset _ _ _ | .tlbinv _ _ _ => true
  | _ => false

/-- I-class codes of an instruction's row (R38). -/
def Instr.iRow : Instr → List Nat
  | .ld _ _ _ _ _ | .vld _ _ _ _ | .vlds _ _ _ _ | .vldx _ _ _ _ | .acqld _ _ _ _ _ | .waitge _ _ _ _ | .barw _ _ _ =>
    [0x41, 0x42, 0x43, 0x44, 0x45, 0x47]
  | .lda _ _ _ _ _ _ | .vlda _ _ _ _ _ | .watch _ _ _ _ | .cultld _ _ _ | .tlbinv _ _ _ => [0x43, 0x44, 0x45]
  | .ldl _ _ _ _ _ | .stl _ _ _ _ _ | .mxmul _ _ _ _ | .mxmuls _ _ _ _ | .mxrd _ _ _ | .mxwr _ _ _ | .mxzero _ _
  | .mxdrain _ _ => [0x46]
  | .st _ _ _ _ _ | .vst _ _ _ _ | .vsts _ _ _ _ | .vstx _ _ _ _ | .relst _ _ _ _ _ => [0x43, 0x44, 0x45, 0x4B]
  | .pst _ _ _ _ => [0x43, 0x44, 0x45, 0x49]
  | .amo _ _ _ _ _ _ | .red _ _ _ _ _ | .tladd _ _ _ _ | .bara _ _ _ _ => [0x41, 0x42, 0x43, 0x44, 0x45, 0x47, 0x4C]
  | .flush _ _ => [0x42, 0x43, 0x44, 0x45]
  | .cfetch _ _ _ => [0x43, 0x44, 0x45, 0x4D]
  | .wake _ _ => [0x4C]
  | .cpgo _ _ => [0x48]
  | .cppb _ _ _ => [0x41, 0x42, 0x43, 0x44, 0x45, 0x48]
  | .send _ _ _ | .nput _ _ _ _ _ _ | .mxcmd _ _ _ => [0x49]
  | .launch _ _ _ => [0x41, 0x42, 0x43, 0x44, 0x45]
  | .mxfetch _ _ _ => [0x41, 0x42, 0x43, 0x44, 0x45, 0x4A]
  | _ => []

/-- IMM is accepted (R68). -/
def Instr.takesImm : Instr → Bool
  | .addi _ _ _ _ | .movi _ _ _ | .andi _ _ _ _ | .ori _ _ _ _ | .xori _ _ _ _ | .cmpi _ _ _ _ _ _
  | .ld _ _ _ _ _ | .st _ _ _ _ _ | .lda _ _ _ _ _ _ | .vld _ _ _ _ | .vst _ _ _ _ | .vlda _ _ _ _ _ => true
  | _ => false

/-- The greatest MOD.RM accepted: 0 none, 4 the four directed and nearest modes, 5 stochastic too (R71). -/
def Instr.takesRm : Instr → Nat
  | .vfadd _ _ _ _ | .vfsub _ _ _ _ | .vfmul _ _ _ _ | .vfma _ _ _ _ | .vfms _ _ _ _ | .vfnma _ _ _ _
  | .vfrcp _ _ _ | .vfrsq _ _ _ | .vfsqrt _ _ _ | .vfexp2 _ _ _ | .vflog2 _ _ _ | .vfrnd _ _ _
  | .vfredAdd _ _ _ | .fadd _ _ _ _ | .fsub _ _ _ _ | .fmul _ _ _ _ | .ffma _ _ _ _
  | .vcvtX2f _ _ _ _ | .vcvtF2i _ _ _ | .vcvtF2u _ _ _ | .vcvtI2f _ _ _ | .vcvtU2f _ _ _
  | .fcvtX2f _ _ _ _ | .fcvtF2i _ _ _ | .fcvtF2u _ _ _ | .fcvtI2f _ _ _ | .fcvtU2f _ _ _
  | .mxmul _ _ _ _ | .mxmuls _ _ _ _ | .mxcmd _ _ _ => 4
  | .vcvtF2x _ _ _ f | .fcvtF2x _ _ _ f | .vpack _ _ _ f _ => if fmtBinary8 f then 5 else 4
  | _ => 0

/-- MOD.SAT is accepted (R71, R93, R142). NOP is a word of ADD (R60), MOVI one of ADDI. -/
def Instr.takesSat : Instr → Bool
  | .nop | .add _ _ _ _ | .sub _ _ _ _ | .mul _ _ _ _ | .addi _ _ _ _ | .movi _ _ _ | .vadd _ _ _ _
  | .vsub _ _ _ _ | .vmul _ _ _ _ | .vmad _ _ _ _ | .vcvtF2x _ _ _ _ | .vcvtX2f _ _ _ _ | .vcvtF2i _ _ _
  | .vcvtF2u _ _ _ | .vcvtI2f _ _ _ | .vcvtU2f _ _ _ | .fcvtF2x _ _ _ _ | .fcvtX2f _ _ _ _ | .fcvtF2i _ _ _
  | .fcvtF2u _ _ _ | .fcvtI2f _ _ _ | .fcvtU2f _ _ _ | .vpack _ _ _ _ _ | .vunpk _ _ _ _ _ => true
  | _ => false

/-- MOD.CACHE is accepted: majors 0x28 to 0x2D but PREF (R71, R206). -/
def Instr.takesCache : Instr → Bool
  | .ld _ _ _ _ _ | .st _ _ _ _ _ | .lda _ _ _ _ _ _ | .vld _ _ _ _ | .vst _ _ _ _ | .vlda _ _ _ _ _
  | .vlds _ _ _ _ | .vsts _ _ _ _ | .vldx _ _ _ _ | .vstx _ _ _ _ | .ldl _ _ _ _ _ | .stl _ _ _ _ _
  | .pst _ _ _ _ | .cfetch _ _ _ | .flush _ _ => true
  | _ => false

/-- The words IMM, ONNR, HINT and MOD. -/
def Instr.isPrefix : Instr → Bool
  | .imm _ | .onnr _ | .hint _ _ _ | .mod _ _ _ => true
  | _ => false

/-- A target accepts one prefix (R66). -/
def Instr.takes (i p : Instr) : Bool :=
  match p with
  | .imm _ => i.takesImm
  | .onnr _ => i.wouldBlock
  | .hint _ _ _ => true
  | .mod m sat ca =>
    (i.takesRm ≠ 0 || i.takesSat || i.takesCache) && m.toNat ≤ i.takesRm && (sat == 0 || i.takesSat) &&
      (ca == 0 || i.takesCache)
  | _ => false

/-- Two prefixes of one kind other than IMM (R65, R66). -/
def Instr.sameKind : Instr → Instr → Bool
  | .onnr _, .onnr _ => true
  | .hint _ _ _, .hint _ _ _ => true
  | .mod _ _ _, .mod _ _ _ => true
  | _, _ => false

/-- The word is legal after the prefixes of the chain: a prefix within R65, a target that accepts each (R66). -/
def Instr.accepts (i : Instr) (chain : List Instr) : Bool :=
  if i.isPrefix then chain.length < 2 && !chain.any (fun p => p.sameKind i)
  else chain.all (fun p => i.takes p)

/-! Registers read through fields (R400), the guard first. -/

/-- A register an instruction reads. -/
inductive Reg where
  | s (n : BitVec 6)
  | v (n : BitVec 5)
  | p (n : BitVec 3)
  deriving DecidableEq, Repr

/-- The register of a guard field. -/
def guardReg (g : BitVec 4) : Reg := .p (g.extractLsb' 0 3)

/-- The guard field of an instruction; 0b0111 for JMP and NOP's 0b1111. -/
def Instr.guardField : Instr → BitVec 4
  | .nop => 15
  | .jmp _ => 7
  | i => (encode i).extractLsb' 22 4

/-- The source registers of an instruction, in the order of its fields (R84, R400). -/
def Instr.sources : Instr → List Reg
  | .add _ _ a b | .sub _ _ a b | .mul _ _ a b | .mulh _ _ a b | .mulhu _ _ a b | .div _ _ a b | .divu _ _ a b
  | .rem _ _ a b | .remu _ _ a b | .and _ _ a b | .or _ _ a b | .xor _ _ a b | .shl _ _ a b | .shr _ _ a b
  | .sar _ _ a b | .rot _ _ a b | .min _ _ a b | .max _ _ a b | .minu _ _ a b | .maxu _ _ a b | .ext _ _ a b
  | .extS _ _ a b | .lea _ _ a b _ | .fadd _ _ a b | .fsub _ _ a b | .fmul _ _ a b | .fmin _ _ a b
  | .fmax _ _ a b | .cmp _ _ _ a b _ | .fcmp _ _ _ a b _ | .mxcap _ _ a b | .mxfetch _ a b | .mxprog _ a b
  | .ldl _ _ a b _ | .tladd _ _ a b | .waitge _ _ a b | .barw _ a b | .parkGe _ a b | .send _ a b
  | .pipeput _ a b | .launch _ a b | .sprint _ a b | .wspsw _ a b | .tlbinv _ a b | .cultld _ a b
  | .red _ _ a b _ => [.s a, .s b]
  | .rangeset _ a b => [.s a, .s b, .s (b + 1)]
  | .watch _ m a b => if m == 1 then [.s a, .s b] else [.s a]
  | .sel _ _ a b _ q => [.s a, .s b, .p q]
  | .ins _ d a b | .ffma _ d a b | .mxmul _ d a b | .mxmuls _ d a b | .stl _ d a b _ | .amo _ _ d a b _
  | .bara _ d a b => [.s d, .s a, .s b]
  | .clz _ _ a | .ctz _ _ a | .popc _ _ a | .mov _ _ a | .addi _ _ a _ | .andi _ _ a _ | .ori _ _ a _
  | .xori _ _ a _ | .shli _ _ a _ | .shri _ _ a _ | .sari _ _ a _ | .cmpi _ _ _ a _ _ | .jmpr _ a | .callr _ a
  | .ret _ a | .jseg _ a | .parkWatch _ a | .fcvtF2x _ _ a _ | .fcvtX2f _ _ a _ | .fcvtF2i _ _ a
  | .fcvtF2u _ _ a | .fcvtI2f _ _ a | .fcvtU2f _ _ a | .mxscl _ a | .mxdrain _ a | .ld _ _ a _ _
  | .lda _ _ a _ _ _ | .vld _ _ a _ | .vlda _ _ a _ _ | .pref _ a | .cfetch _ a _ | .flush _ a | .wake _ a
  | .cpset _ a _ | .cppb _ _ a | .cpq _ _ a | .pipeget _ _ a | .jrnl _ _ a | .acqld _ _ a _ _ => [.s a]
  | .loop _ d _ | .mxzero _ d => [.s d]
  | .mxrd _ d a | .mxwr _ d a | .mxcmd _ d a | .st _ d a _ _ | .pst _ d a _ | .relst _ d a _ _ => [.s d, .s a]
  | .vst _ d a _ => [.v d, .s a]
  | .vlds _ _ a b => [.s a, .s b]
  | .vsts _ d a b => [.v d, .s a, .s b]
  | .vldx _ _ a b => [.s a, .v b]
  | .vstx _ d a b => [.v d, .s a, .v b]
  | .pand _ _ a b | .por _ _ a b | .pxor _ _ a b => [.p a, .p b]
  | .pnot _ _ a => [.p a]
  | .vmad _ d a b | .vfma _ d a b | .vfms _ d a b | .vfnma _ d a b => [.v d, .v a, .v b]
  | .vadd _ _ a b | .vsub _ _ a b | .vmul _ _ a b | .vand _ _ a b | .vor _ _ a b | .vxor _ _ a b
  | .vshl _ _ a b | .vshr _ _ a b | .vsar _ _ a b | .vmin _ _ a b _ | .vmax _ _ a b _ | .vsel _ _ a b
  | .vshuf _ _ a b | .vrot _ _ a b | .vcmp _ _ a b _ | .vfadd _ _ a b | .vfsub _ _ a b | .vfmul _ _ a b
  | .vfmin _ _ a b | .vfmax _ _ a b | .vfcmp _ _ a b _ => [.v a, .v b]
  | .vabs _ _ a | .vfabs _ _ a | .vfneg _ _ a | .vfrcp _ _ a | .vfrsq _ _ a | .vfsqrt _ _ a | .vfexp2 _ _ a
  | .vflog2 _ _ a | .vfclass _ _ a | .vcvtF2x _ _ a _ | .vcvtX2f _ _ a _ | .vcvtF2i _ _ a | .vcvtF2u _ _ a
  | .vcvtI2f _ _ a | .vcvtU2f _ _ a | .vpack _ _ a _ _ | .vunpk _ _ a _ _ | .vfrnd _ _ a => [.v a]
  | .vbcast _ s _ => [.s s]
  | .vredAdd _ _ v | .vredAnd _ _ v | .vredOr _ _ v | .vredXor _ _ v | .vredMin _ _ v _ | .vredMax _ _ v _
  | .vfredAdd _ _ v | .vfredMin _ _ v | .vfredMax _ _ v => [.v v]
  | .nput _ _ a _ _ v | .ntake _ _ a v => if v == 1 then [.v (a.extractLsb' 0 5)] else [.s a]
  | .susp _ a b => [.s a, .s (a + 1), .s b, .s (b + 1)]
  | .taskpush _ b => [.s b, .s (b + 1)]
  | .syscNb _ a b => [.s a, .s b, .s (b + 1), .s (b + 2), .s (b + 3)]
  | .movcw _ _ b => [.s b]
  | _ => []

/-- Guard and sources, without s0 and p7, which fetch nothing (R400). -/
def Instr.reads (i : Instr) : List Reg :=
  if i.isPrefix || i.isEvent then []
  else (guardReg i.guardField :: i.sources).filter (fun r => r != .s 0 && r != .p 7)

/-- Offset and size of a register in the workspace (R80). -/
def Reg.span : Reg → Nat × Nat
  | .s n => (8 * n.toNat, 8)
  | .v n => (0x200 + 0x80 * n.toNat, 0x80)
  | .p n => (0x1200 + 4 * n.toNat, 4)

/-- The banks a register read takes (R84): bits [8:4] of its offset, a workspace beginning at bank 0. -/
def Reg.banks (ws : Nat) (r : Reg) : List Nat :=
  (Machine.fromTo 0 ((r.span.2 + 15) / 16)).map (fun j => ((ws + r.span.1) / 16 + j) % 32)

/-- PREF, SPRINT and UNSPRINT never trap but by their encoding (R219, R357, R358). -/
def Instr.neverTraps : Instr → Bool
  | .pref _ _ | .sprint _ _ _ | .unsprint _ => true
  | _ => false
/-- Of these, PREF may do nothing at all: where it cannot read its operand or its guard it does nothing (R219, log 50). -/
def Instr.mayIdle : Instr → Bool
  | .pref _ _ => true
  | _ => false

end Sys2Proof

namespace Sys2Proof.Machine

/-- The lowest poisoned byte of a register, if any (R204). -/
def State.regPoison (s : State) (r : Reg) : Option Nat :=
  if s.poison.isEmpty then none
  else (fromTo (s.ws + r.span.1) r.span.2).find? (fun a => s.poisoned a)

/-- The registers that MXCMD reads besides its fields' own: the window, and those its OP uses (R183, R400). -/
def State.commandRegs (s : State) : Instr → List Reg
  | .mxcmd _ _ a =>
    if a.toNat > 60 then []
    else
      let op := fld (s.getS a) 63 60
      let r (j : Nat) : Reg := .s (a + BitVec.ofNat 6 j)
      if op ≤ 1 then [r 1, r 2, r 3] else if op = 8 then [r 1] else if op = 6 || op = 7 then [r 1, r 2] else []
  | _ => []

/-- The operand reads of an instruction (R400). -/
def State.fieldReads (s : State) (i : Instr) : List Reg := i.reads ++ s.commandRegs i

/-- Fields of HINT.REUSE by the order of an instruction's sources: bit 8 d, bit 7 a, bit 6 b (R70). R70 names no bit for
the one source of VBCAST and of the reductions, the fields s and v of format VX: bit 7 is taken (DESIGN CHOICE, log 9).
A register field that names several registers keeps each of them. -/
def Instr.fieldBits : Instr → List Nat
  | .ins _ _ _ _ | .ffma _ _ _ _ | .mxmul _ _ _ _ | .mxmuls _ _ _ _ | .stl _ _ _ _ _ | .amo _ _ _ _ _ _ | .bara _ _ _ _
  | .vsts _ _ _ _ | .vstx _ _ _ _ | .vmad _ _ _ _ | .vfma _ _ _ _ | .vfms _ _ _ _ | .vfnma _ _ _ _ | .loop _ _ _
  | .mxzero _ _ | .mxrd _ _ _ | .mxwr _ _ _ | .mxcmd _ _ _ | .st _ _ _ _ _ | .pst _ _ _ _ | .relst _ _ _ _ _
  | .vst _ _ _ _ => [2, 1, 0]
  | .taskpush _ _ => [0, 0]
  | .movcw _ _ _ => [0]
  | .susp _ _ _ => [1, 1, 0, 0]
  | .syscNb _ _ _ => [1, 0, 0, 0]
  | .rangeset _ _ _ => [1, 0, 0]
  | _ => [1, 0]

/-- The registers that a chain's HINT keeps of an instruction for the context's next one (R70): sources alone, as R70 does
not say that the result in a d that is only a destination is kept (DESIGN CHOICE, log 9). -/
def Instr.kept (i : Instr) (chain : List Instr) : List Reg :=
  match chain.find? (fun p => match p with | .hint _ _ _ => true | _ => false) with
  | some (.hint u _ _) =>
    ((i.sources.zip (Instr.fieldBits i)).filterMap (fun x => if u.getLsbD x.2 then some x.1 else none)).filter
      (fun r => r != .s 0 && r != .p 7)
  | _ => []

/-- The workspace items that an instruction reads at issue without a field that names them (R400): offset and size. -/
def State.itemReads (s : State) (i : Instr) : List (Nat × Nat) :=
  let round := (if s.modRm = 0 then [(0x1238, 8)] else [] : List (Nat × Nat))
  let scales : List (Nat × Nat) := (fromTo 0 4).map (fun j => (0x1250 + 8 * j, 8))
  match i with
  | .movc _ _ c =>
    match c.toNat with
    | 10 | 11 => [(0x1240, 8)]
    | 12 => [(0x1278, 8)] | 13 => [(0x1270, 4)] | 14 => [(0x1274, 4)] | 15 => [(0x121C, 4)] | 16 => [(0x1234, 4)]
    | 17 => [(0x1238, 8)] | 18 => [(0x1250, 8)] | 19 => [(0x1258, 8)] | 20 => [(0x1260, 8)] | 21 => [(0x1268, 8)]
    | 28 => [(0x1248, 8)]
    | _ => []
  | .tret _ => if s.priv then [(0x1240, 8), (0x1270, 4), (0x1274, 4)] ++
      (if s.twsp ≠ s.cx.wsp.toNat then [(0x1220, 8)] else []) else []
  | .wspsw _ _ _ => if s.priv then [] else [(0x1220, 8), (0x1240, 8)]
  | .waita _ n | .lda _ _ _ n _ _ => [(0x1220 + 2 * n.toNat, 2)]
  | .vlda _ _ _ k _ => [(0x1220 + 2 * (k.toNat - 2), 2)]
  | .ntake _ _ a v => [(0x1228 + (a.toNat + (if v == 1 then 64 else 0)) / 8, 1)]
  | .parkNbS _ n => [(0x1228 + n.toNat / 8, 1)]
  | .parkNbV _ n => [(0x1228 + (64 + n.toNat) / 8, 1)]
  | .mxmul _ _ _ _ | .mxmuls _ _ _ _ | .mxcmd _ _ _ => round ++ scales
  | .vst _ _ _ _ | .vsts _ _ _ _ | .vstx _ _ _ _ => [(0x1238, 8)]
  | i => if i.takesRm ≠ 0 then round else []

/-- The lowest poisoned byte of the items an instruction reads at issue (R204). -/
def State.itemPoison (s : State) (i : Instr) : Option Nat :=
  if s.poison.isEmpty then none
  else ((s.itemReads i).filterMap (fun x => (fromTo (s.ws + x.1) x.2).find? (fun a => s.poisoned a))).min?

/-- The value of a register as words, for telling one retry sequence from another (R41). -/
def State.regWords (s : State) (r : Reg) : List W64 :=
  (fromTo 0 ((r.span.2 + 7) / 8)).map (fun j => BitVec.ofNat 64 (s.peek (s.ws + r.span.1 + 8 * j) (min 8 r.span.2)))

end Sys2Proof.Machine
end

