-- ==== Sys2Proof/Machine/Ops.lean ====
section
/-!
DEFINITION. Taking a trap and leaving it (R332 to R335, R338), stops and releases (R25, R339), parking (R43 to R45),
and the frame every instruction runs in: prefixes (R66), guard (R58, R59), poisoned operands (R204), completion, the
not-ready outcome (R33, R88), and the bounds on the device's discretion (R36 to R41).
-/

namespace Sys2Proof.Machine

/-- What an instruction or an event answers. -/
abbrev Out := Host.Outcome State Fault Refusal

/-! Counters of the configuration page (R301, R302). -/

/-- Adds n to the counter at an offset of quad q's page, modulo its size. -/
def State.bump (s : State) (q off n size : Nat) : State :=
  s.modQuad q (fun x =>
    let v := (((mapGet x.counts off).getD 0).toNat + n) % 2 ^ (8 * size)
    { x with counts := mapSet x.counts off (BitVec.ofNat 64 v) })

/-! Taking a trap. -/

/-- What a trap or a stop drops: the hold and the landing reservation (R39, R40), the prefixes issued (R67), the retry
sequence (R41), the YIELD mark. The park descriptor is kept. Of the YIELD mark R333 says so for a trap alone; that a debug
stop and a gang stop drop it too is a DESIGN CHOICE (log 73). -/
def Ctx.dropTransient (x : Ctx) : Ctx :=
  { x with hold := none, resv := none, resvLost := x.resvLost || x.resv.isSome, yielded := false, lost := 0,
           owed := none, kept := [], chain := [], retry := none, past := [] }

/-- The handler's first word in its segment; SLOT is 0 (R372). -/
def State.handlerPc (s : State) (vf : Nat) : PCVal :=
  BitVec.ofNat 14 ((s.vf vf).record.hentry.toNat / 4 % 1024)

/-- FLAGS of context k of core n. -/
def State.flagsOf (s : State) (n k : Nat) : W64 := BitVec.ofNat 64 (s.peek (s.wsOf n k + 0x1240) 8)
def State.setFlagsOf (s : State) (n k : Nat) (v : W64) : State := s.poke (s.wsOf n k + 0x1240) 8 v.toNat

/-- A debugger is attached to the hoop of core n (R339). -/
def State.debugged (s : State) (n : Nat) : Bool :=
  match (s.core n).hoop with
  | some h => match s.hoop h with | some x => x.dbg | none => false
  | none => false

/-- The trap registers (R333 steps 1 to 4), with FLAGS.PRIV set. -/
def State.trapWords (s : State) (n k : Nat) (cause : BitVec 6) (async : Bool) (tpc : PCVal) (pk : Bool) (tval : W64) :
    State :=
  let f := setFld (setFld (setFld (setFld (s.flagsOf n k) 31 31 (if async then 1 else 0)) 29 24 cause.toNat) 23 23 1)
    21 21 (if pk then 1 else 0)
  (((s.setFlagsOf n k f).poke (s.wsOf n k + 0x1270) 4 tpc.toNat).poke (s.wsOf n k + 0x1274) 4
    (s.ctx n k).wsp.toNat).poke (s.wsOf n k + 0x1278) 8 tval.toNat

/-- The context joins its tile's service core, last of those AWAY (R335). -/
def State.joinService (s : State) (n k : Nat) : State := s.modTile (tileOf n) (fun t => { t with away := t.away ++ [(n, k)] })
def State.leaveService (s : State) (n k : Nat) : State :=
  s.modTile (tileOf n) (fun t => { t with away := t.away.filter (fun x => x != (n, k)) })

/-- Delivers a trap to a context that is not AWAY, as one update (R333). -/
def State.deliverTrap (s : State) (n k : Nat) (cause : BitVec 6) (async : Bool) (tpc : PCVal) (pk : Bool) (tval : W64) :
    State :=
  let s1 := s.trapWords n k cause async tpc pk tval
  let s2 := s1.modCtx n k (fun x => { x.dropTransient with st := .away, pc := s.handlerPc (s.quad (quadOf n)).vf })
  s2.joinService n k

/-- A trap of a context running a task freezes its hoop's task queue (R322). -/
def State.freezeTask (s : State) (n k : Nat) : State :=
  match (s.ctx n k).task, (s.core n).hoop with
  | some (pc, mask), some h =>
    (s.modHoop h (fun x => { x with frozen := true })).faultRecord (s.quad (quadOf n)).vf 0x25 0 0 (s.tagOf n)
      (srcCtx n k) pc.toNat mask.toNat
  | _, _ => s

/-- A trap raised while FLAGS.PRIV = 1: no handler runs, the context is STOPPED, a record tells (R335). -/
def State.nestedTrap (s : State) (n k : Nat) (cause : BitVec 6) (tval : W64) : State :=
  let s1 := s.modCtx n k (fun x => { x.dropTransient with st := .stopped, prior := .away, stopTrap := true })
  (s1.leaveService n k).faultRecord (s.quad (quadOf n)).vf 0x0F 0 0 (s.tagOf n) (srcCtx n k) cause.toNat tval.toNat

/-- A chain under FLAGS.STEP trapped with a debugger attached: the context stops with its trap registers set; FLAGS.PRIV
and the handler's PC follow when its release migrates it (R339). -/
def State.stopInTrap (s : State) (n k : Nat) (cause : BitVec 6) (tpc : PCVal) (tval : W64) : State :=
  let s1 := s.trapWords n k cause false tpc false tval
  (s1.setFlagsOf n k (setFld (s1.flagsOf n k) 23 23 0)).modCtx n k (fun x =>
    { x.dropTransient with st := .stopped, prior := .away, stopDebug := true, migrate := true })

/-- An exact trap of the issuing context. `own` marks TRAP and DBGBRK, whose TPC names the next word and which freeze
no task queue (R322, R333, R336). FLAGS.STEP is cleared (R339). -/
def State.exactTrap (s : State) (cause : BitVec 6) (tval : W64) (tpc : PCVal) (own : Bool) : State :=
  let n := s.cur.core
  let k := s.cur.ctx
  let step := s.flags.getLsbD 22
  let s0 := if step then s.setFlags (setFld s.flags 22 22 0) else s
  if s.priv then s0.nestedTrap n k cause tval
  else
    let s1 := if own then s0 else s0.freezeTask n k
    if step && s.debugged n then s1.stopInTrap n k cause tpc tval
    else s1.deliverTrap n k cause false tpc false tval

/-- An exact trap at the chain's first word (R66, R333). -/
def State.raise (s : State) (cause : BitVec 6) (tval : W64) : State := s.exactTrap cause tval s.cx.pc false

/-! Asynchronous causes (R334). -/

/-- PC of the parking instruction of a PARKED context, whose PC names the next word (text before R114). -/
def Ctx.parkPc (x : Ctx) : PCVal := pcAdd x.pc (-1)

/-- Delivers the head of the pending queue at a boundary of the context (R333, R334). -/
def State.deliverPending (s : State) (n k : Nat) : State :=
  let x := s.ctx n k
  match x.pend with
  | [] => s
  | p :: rest =>
    let s1 := s.modCtx n k (fun y => { y with pend := rest })
    if x.st = .parked then s1.deliverTrap n k p.cause true x.parkPc true p.tval
    else s1.deliverTrap n k p.cause true x.pc false p.tval

/-- A journal entry as JRNL and a record show it (R328). -/
def JEntry.word (e : JEntry) : Nat :=
  (match e.state with | .free => 0 | .pending => 1 | .refused => 2) * 2 ^ 62 + e.cause.toNat * 2 ^ 56 +
    e.owner * 2 ^ 52 + (if e.dbl then 2 ^ 48 else 0)

/-- The F record of an asynchronous cause that its context does not take (R117, R334): VA holds its TVAL, DETAIL what
R325 gives the cause; `e` is the journal entry that the TVAL of cause 0x21 numbers. -/
def State.lostCause (s : State) (n k : Nat) (e : JEntry) (vf : Nat) (tag : W64) (cause : BitVec 6) (tval : W64) : State :=
  let d : Nat × Nat := if cause = 0x21 then (e.word, e.va.toNat) else if cause = 0x18 then (tval.toNat, 0) else (0, 0)
  s.faultRecord vf cause tval.toNat 0 tag (srcCtx n k) d.1 d.2

/-- A cause for a context: queued; an F record when the context has exited, or its queue is full (R332, R334). `live`
says that the context still runs what raised the cause. A PARKED context takes the trap at once (R45), a HELD one
leaves its hold for its next boundary. -/
def State.pendCause (s : State) (n k : Nat) (cause : BitVec 6) (tval : W64) (live : Bool) : State :=
  let x := s.ctx n k
  if x.st = .free || !live || x.pend.length ≥ 8 then
    s.lostCause n k ((s.core n).entry tval.toNat) (s.quad (quadOf n)).vf (s.tagOf n) cause tval
  else
    let s1 := s.modCtx n k (fun y => { y with pend := y.pend ++ [⟨cause, tval⟩] })
    match x.st with
    | .parked => s1.deliverPending n k
    | .held => s1.modCtx n k (fun y => { y with st := .ready, hold := none })
    | _ => s1

/-- A cause for the context of a hoop that sent something on its way: at the context, or, when a gang switch has stopped
and saved its hoop, in the saved context's queue (R334, R341); an F record to its VF when it has exited. -/
def State.pendSender (s : State) (n k : Nat) (hoop : Option Nat) (vf : Nat) (tag : W64) (gone : Bool) (cause : BitVec 6)
    (tval : W64) : State :=
  let lost := s.lostCause n k ((s.core n).entry tval.toNat) vf tag cause tval
  if gone then lost
  else if (s.core n).hoop == hoop && (s.ctx n k).st != .free then s.pendCause n k cause tval true
  else
    match s.hub.parts.findSome? (fun p => (p.2.gang.toList ++ p.2.shelf).findSome? (fun g =>
      match mapGet g.cores n with
      | some c => if c.hoop == hoop && hoop.isSome && (c.ctx n k).st != .free then some (p.1, g, c) else none
      | none => none)) with
    | some (p, g, c) =>
      let x := c.ctx n k
      if x.pend.length ≥ 8 then lost
      else
        let d : Core := { c with ctxs := mapSet c.ctxs k { x with pend := x.pend ++ [⟨cause, tval⟩] } }
        let put (z : Gang) : Gang := if z.slice = g.slice then { z with cores := mapSet z.cores n d } else z
        s.modPart p (fun y => { y with gang := y.gang.map put, shelf := y.shelf.map put })
    | none => lost

/-! Stops and releases (R25, R339, R341). -/

/-- Stops a context: its state before is kept, what is transient dropped; FLAGS.STEP is cleared. A PARKED context's PC
names the parking instruction, with FLAGS.PK = 1 (R91). -/
def State.stopCtx (s : State) (n k : Nat) (mark : Ctx → Ctx) : State :=
  let x := s.ctx n k
  match x.st with
  | .free => s
  | .stopped => s.modCtx n k mark
  | st =>
    let prior := if st = .held then .ready else st
    let f := setFld (s.flagsOf n k) 22 22 0
    let s1 := s.setFlagsOf n k (if st = .parked then setFld f 21 21 1 else f)
    let s2 := s1.modCtx n k (fun y =>
      mark { y.dropTransient with st := .stopped, prior := prior, pc := if st = .parked then y.parkPc else y.pc })
    if st = .away then s2.leaveService n k else s2

/-- A PARK.nb, PARK.watch or RECV.park of context k of core n finds its wake condition true (R43, R44). -/
def State.parkHolds (s : State) (n k : Nat) : Park → Bool
  | .nb bit => s.presence (s.wsOf n k) bit
  | .watch a => s.hub.waits.any (fun e =>
      e.latch && e.waiter == .ctx n k && e.hoop == (s.core n).hoop && e.asked == a.toNat)
  | .recv ch => match ((s.core n).chan ch).flits.head? with
    | some f => f.tag % 32 ≥ 16 || f.tag = k
    | none => false
  | _ => false

/-- PARK.watch consumes the latches of the entries of its address (R44). -/
def State.unlatch (s : State) (n k : Nat) : Park → State
  | .watch a => s.modHub (fun h => { h with waits := h.waits.map (fun e =>
      if e.waiter == .ctx n k && e.hoop == (s.core n).hoop && e.asked == a.toNat then { e with latch := false } else e) })
  | _ => s

/-- A context that was PARKED is PARKED again, its PC at the next word, and tests its condition (R25, R44): a PARK.ge
when its read completes, the others at once. -/
def State.parkAgain (s : State) (n k : Nat) : State :=
  let s1 := (s.setFlagsOf n k (setFld (s.flagsOf n k) 21 21 0)).modCtx n k (fun y =>
    { y with st := .parked, pc := pcAdd y.pc 1,
             park := (match y.park with | .ge a t _ => .ge a t true | p => p) })
  let p := (s1.ctx n k).park
  if s1.parkHolds n k p then (s1.unlatch n k p).modCtx n k (fun y => { y with st := .ready, park := .none }) else s1

/-- Releases a stopped context whose last reason to stop is gone: to its state before (R25, R339); one that stopped in a
trap migrates now. -/
def State.releaseCtx (s : State) (n k : Nat) : State :=
  let x := s.ctx n k
  if x.st = .stopped && !x.stopDebug && !x.stopGang && !x.stopTrap then
    match x.prior with
    | .parked =>
      match x.pend with
      | p :: rest =>
        (s.modCtx n k (fun y => { y with pend := rest })).deliverTrap n k p.cause true x.pc true p.tval
      | [] => s.parkAgain n k
    | .away =>
      if x.migrate then
        ((s.setFlagsOf n k (setFld (s.flagsOf n k) 23 23 1)).modCtx n k (fun y =>
          { y with st := .away, migrate := false, pc := s.handlerPc (s.quad (quadOf n)).vf })).joinService n k
      else (s.modCtx n k (fun y => { y with st := .away })).joinService n k
    | p => s.modCtx n k (fun y => { y with st := p })
  else s

/-- A chain issued with FLAGS.STEP = 1 has retired (R339): STEP is cleared; with a debugger attached the context stops,
else cause 0x0D follows at the next boundary. A trapped chain has cleared STEP itself. -/
def State.stepRetired (s : State) (n k : Nat) : State :=
  if (s.flagsOf n k).getLsbD 22 && (s.ctx n k).st != .free then
    let s1 := s.setFlagsOf n k (setFld (s.flagsOf n k) 22 22 0)
    if s.debugged n then s1.stopCtx n k (fun x => { x with stopDebug := true }) else s1.pendCause n k 0x0D 0 true
  else s

/-! The device's discretion (R36 to R41). -/

/-- The values a retry sequence keeps (R41). -/
def State.seqValues (s : State) (i : Instr) : List W64 := (s.fieldReads i).flatMap (fun r => s.regWords r)

/-- I-class outcomes in a row so far in the retry sequence that this execution continues (R41). -/
def State.retryCount (s : State) (i : Instr) : Nat :=
  match s.cx.retry with
  | some r => if r.pc = s.wordPc && r.values = s.seqValues i && r.imms = chainImms s.cx.chain then r.count else 0
  | none => 0

/-- The I-class code the device may report at this execution, 0 for none: the next choice of the list, where R38, R40
and R41 allow it (log 5). -/
def State.discretion (s : State) (i : Instr) : Nat :=
  match s.choices with
  | c :: _ =>
    if i.iRow.contains c.code && s.retryCount i < Config.B && (c.code != 0x47 || s.cx.resvLost) then c.code else 0
  | [] => 0

/-- An address that page tables translate: not one of the windows (R191, R378). -/
def walksFor (va : Nat) : Bool :=
  va < 2 ^ 56 && !(localWin ≤ va && va < localWin + Memory.localSize) && !(svcWin ≤ va && va < svcWin + 0x100000) &&
    !(capBase.toNat ≤ va && va < capBase.toNat + capSize)

/-- The code that step 4 of R35 reports for an access to some addresses (R202): 0x43 where one misses in the core TLB,
0x44 where one misses in the shared TLB too, 0x45 where moreover none of the 64 walkers of the die is free. -/
def State.discretion4 (s : State) (i : Instr) (w : Who) (vas : List Nat) : Nat :=
  let c := s.discretion i
  let l := vas.filter walksFor
  if c == 0x43 && l.any (fun a => s.missesCore w a) then c
  else if c == 0x44 && l.any (fun a => s.missesShared w a) then c
  else if c == 0x45 && l.any (fun a => s.missesShared w a) && (s.dieWalks (dieOf w.core)).length ≥ 64 then c
  else 0

/-- The walks of an access that a not-ready outcome leaves running (R202): those of the pages that miss everywhere. -/
def State.startWalks (s : State) (w : Who) (vas : List Nat) : State :=
  let l := ((vas.filter (fun a => walksFor a && s.missesShared w a)).map (fun a => a / 4096)).dedup
  s.modHub (fun h => { h with walks := h.walks ++
    (l.map (fun p => (⟨w.core, w.vf, p⟩ : WalkReq))).filter (fun r => !h.walks.contains r) })
/-- The code that step 6 of R35 reports. -/
def State.discretion6 (s : State) (i : Instr) : Nat :=
  let c := s.discretion i
  if c == 0x43 || c == 0x44 || c == 0x45 then 0 else c

/-! The frame of an instruction. -/

/-- What the body of an instruction answers. The state in `trap`, `own` and `wait` holds no effect but cached
translations. -/
inductive Res where
  /-- completes; control passes to the next word -/
  | done (s : State)
  /-- completes; control passes to a PC -/
  | jump (s : State) (pc : PCVal)
  /-- an exact trap -/
  | trap (s : State) (cause : BitVec 6) (tval : W64)
  /-- the trap of TRAP and DBGBRK, whose TPC names the next word -/
  | own (s : State) (cause : BitVec 6) (tval : W64)
  /-- not ready, with the lines that an I-class outcome reserves -/
  | wait (s : State) (code : Nat) (lines : List Nat)

/-- How an instruction uses its guard (R58, R59). -/
inductive GuardUse where
  | scalar
  | lanes
  | own
  deriving DecidableEq, Repr

def GuardUse.passes (u : GuardUse) (s : State) (g : BitVec 4) : Bool :=
  match u with
  | .scalar => s.holds g
  | .lanes => s.guard g != 0
  | .own => true

/-- Control passes to a PC; the chain is done, and what others have overwritten before it is past (R130). -/
def State.goto (s : State) (pc : PCVal) : State :=
  s.modCx (fun x => { x with pc := pc, chain := [], lost := 0, past := [] })

/-- A word that is not a retry ends the retry sequence, but for one BR or JMP (R41). -/
def endsRetry (i : Instr) (r : Option Retry) : Option Retry :=
  match r, i with
  | some x, .br _ _ => if x.branch then none else some { x with branch := true }
  | some x, .jmp _ => if x.branch then none else some { x with branch := true }
  | _, _ => none

/-- A completed word, or one whose guard is false: the retry sequence ends. -/
def State.noRetry (s : State) (i : Instr) : State := s.modCx (fun x => { x with retry := endsRetry i x.retry })

/-- The landing reservation after the word in play has been issued again: gone when it is this access's (R40). -/
def Ctx.resvAfter (x : Ctx) : Option Reservation :=
  match x.resv with
  | some r => if r.pc = pcAdd x.pc x.chain.length then none else some r
  | none => none

/-- A would-block instruction completes (R33): p6 all-ones, its reservation dropped, the choice used. -/
def State.completed (s : State) (i : Instr) : State :=
  if i.wouldBlock then
    let s1 := s.setP 6 0xFFFFFFFF
    let s2 := s1.modCx (fun x => { x with retry := none, resv := x.resvAfter, resvLost := false })
    { s2 with choices := s2.choices.tail }
  else s.noRetry i

/-- The core whose L1 may hold a line for core n: under fusion the one that PA[7:6] names in the quad (R198). -/
def State.l1Core (s : State) (n line : Nat) : Nat :=
  if (s.quad (quadOf n)).fused then quadCore (quadOf n) (line % 4) else n
def Core.hasLine (c : Core) (line : Nat) : Bool := c.l1.any (fun x => x.line == line)
def Tile.hasLine (t : Tile) (line : Nat) : Bool := t.l2.any (fun x => x.line == line)

/-- The fills of the lines that an access of core n needs and its L1 lacks are started (R40). -/
def State.startFills (s : State) (n : Nat) (lines : List Nat) : State :=
  let l := (lines.filter (fun x => (isHbm (64 * x) || isHost (64 * x)) && !(s.core (s.l1Core n x)).hasLine x &&
    !(s.core n).fills.contains x)).dedup
  if l.isEmpty then s else s.modCore n (fun c => { c with fills := c.fills ++ l })

/-- The three not-ready writes and NRPC, as one update (R33, R88), and the page counter (R301). -/
def State.reportNotReady (s : State) (code : Nat) (nri tgt : PCVal) : State :=
  let s1 := ((s.setP 6 0).setItem 0x121C 4 (s.nrcnt + 1)).setItem 0x1234 4 code
  let s2 := s1.setItem 0x1248 8 (tgt.toNat * 2 ^ 32 + nri.toNat)
  s2.bump (quadOf s.cur.core) (0x400 + 0x200 * coreInQuad s.cur.core + 4 * code) 1 4

/-- A not-ready outcome (R33 to R41, R69). -/
def State.notReady (s : State) (i : Instr) (code : Nat) (lines : List Nat) : State :=
  let iclass := code ≥ 0x40
  let pc := s.wordPc
  let tgt := (s.onnr).getD s.nextPc
  let retry : Retry := ⟨pc, s.seqValues i, chainImms s.cx.chain, if iclass then s.retryCount i + 1 else 0, false⟩
  let hold := iclass && (match s.choices with | c :: _ => c.hold | [] => false)
  let s1 := (s.reportNotReady code pc tgt).goto tgt
  let s2 := s1.modCx (fun x =>
    { x with
      retry := some retry,
      resv := if iclass && !lines.isEmpty then some ⟨pc, lines, 0⟩ else
        (match x.resv with | some r => if r.pc = pc then none else some r | none => none),
      resvLost := if code = 0x47 then false else x.resvLost,
      st := if hold && x.st = .ready then .held else x.st,
      hold := if hold && x.st = .ready then some 0 else x.hold })
  let s3 := if iclass then s2.startFills s.cur.core lines else s2
  { s3 with choices := s3.choices.tail }

/-- What the answer of an instruction's body does. -/
def State.settle (s : State) (i : Instr) : Res → State
  | .done t => (t.completed i).goto s.nextPc
  | .jump t pc => (t.completed i).goto pc
  | .trap t c v => t.exactTrap c v s.cx.pc false
  | .own t c v => t.exactTrap c v s.nextPc true
  | .wait t code lines => t.notReady i code lines

/-- Nothing but the issue slot: control passes to the next word (R59, R33). -/
def State.passed (s : State) (i : Instr) : State := (s.noRetry i).goto s.nextPc

/-- TVAL of a byte of the quad's local memory: its local-window address (R191). -/
def localVa (pa : Nat) : W64 := BitVec.ofNat 64 (localWin + localOff pa)

/-- The lowest poisoned byte among the registers an instruction reads (R204, R333). -/
def State.readPoison (s : State) (i : Instr) : Option Nat :=
  if s.poison.isEmpty then none
  else ((i.reads.filterMap (fun r => s.regPoison r)) ++ (s.itemPoison i).toList).min?

/-- A poisoned register under an instruction that never traps: PREF does nothing; SPRINT and UNSPRINT go on, under a
poisoned guard or not as a free bit says (log 50). -/
def State.untrapped (s : State) (i : Instr) (guard : Bool) (body : State → Res) : State :=
  if i.mayIdle then s.passed i
  else if !guard then s.settle i (body s)
  else if (Config.freeValue s.draws).getLsbD 0 then s.draw.2.settle i (body s.draw.2) else s.draw.2.passed i

/-- Every instruction but the prefixes: checks of encoding and prefixes first, whatever the guard (R59, R66), then the
guard and its register's poison, then the sources' (R204), then the instruction. The sources of FCMP are read under a false
guard too, though the compare is not made then: R160 and R204 do not say (DESIGN CHOICE, log 76). -/
def run (i : Instr) (g : BitVec 4) (u : GuardUse) (s : State) (body : State → Res) : Out :=
  if !i.accepts s.cx.chain then .next (s.raise 0x01 (BitVec.zeroExtend 64 (encode i)))
  else if g = 15 then .next (s.passed i)
  else match (if g = 7 then none else s.regPoison (guardReg g)) with
    | some a => if i.neverTraps then .next (s.untrapped i true body) else .next (s.raise 0x3B (localVa a))
    | none =>
      if !u.passes s g then .next (s.passed i)
      else match s.readPoison i with
        | some a => if i.neverTraps then .next (s.untrapped i false body) else .next (s.raise 0x3B (localVa a))
        | none => .next (s.settle i (body s))

/-- A prefix joins the chain (R65, R66). -/
def issuePrefix (i : Instr) (s : State) : Out :=
  if i.accepts s.cx.chain then .next (s.modCx (fun x => { x with chain := x.chain ++ [i], lost := 0 }))
  else .next (s.raise 0x01 (BitVec.zeroExtend 64 (encode i)))

/-- A word that is no instruction, a fetch from an EMPTY slot, and a poisoned word (R75, R196, R204). -/
def refusedWord (cause : BitVec 6) (tval : W64) (s : State) : Out := .next (s.raise cause tval)

end Sys2Proof.Machine
end

