-- ==== Sys2Proof/Machine/Flags.lean ====
section
/-!
DEFINITION. Conditions and flags: integer condition codes (R74), predicate results of the compares (R103, R146), the
sticky float flags (R135, R136), and the shared forms of scalar and vector operations.
-/

namespace Sys2Proof.Machine

/-- An integer condition on two values (R74). -/
def ccBits (w : Nat) (cc : Nat) (a b : BitVec w) : Bool :=
  if cc = 0 then a == b else if cc = 1 then a != b
  else if cc = 2 then a.slt b else if cc = 3 then a.sle b else if cc = 4 then b.slt a else if cc = 5 then b.sle a
  else if cc = 6 then a.ult b else if cc = 7 then a.ule b else if cc = 8 then b.ult a else if cc = 9 then b.ule a
  else (a &&& b) != 0

/-- The two predicate writes of a scalar compare, the second after the first (R103). -/
def State.setPair (s : State) (p e : BitVec 3) (live c : Bool) : State :=
  (s.setP p (allOnes32 (c && live))).setP e (allOnes32 (!c && live))

/-- 32 lanes as a word. -/
def laneBits (f : Nat → Bool) : W32 :=
  (fromTo 0 32).foldl (fun acc i => if f i then acc ||| (1 : W32) <<< i else acc) 0

/-- P[p][i] ← f i in the guarded lanes; the others keep their bits (R105, R146). -/
def State.setPMask (s : State) (p : BitVec 3) (mask : W32) (f : Nat → Bool) : State :=
  s.setP p ((s.getP p &&& ~~~mask) ||| (laneBits f &&& mask))

/-- The flags of the lanes of a mask, together. -/
def laneFx (mask : W32) (f : Nat → Nat) : Nat :=
  (fromTo 0 32).foldl (fun acc i => if mask.getLsbD i then acc ||| f i else acc) 0

/-! Scalar operations: a guarded effect on S[d]. -/

/-- S[d] ← f s under G[0]. -/
def scalarOp (i : Instr) (g : BitVec 4) (d : BitVec 6) (f : State → W64) (s : State) : Out :=
  run i g .scalar s (fun t => .done (t.setS d (f t)))

/-- A two-source operation. -/
def scalarOp2 (i : Instr) (g : BitVec 4) (d a b : BitVec 6) (f : W64 → W64 → W64) (s : State) : Out :=
  scalarOp i g d (fun t => f (t.getS a) (t.getS b)) s

/-- An operation with a saturating form: the exact result is clamped to the signed range under MOD.SAT, else taken
modulo 2^64 (R93). -/
def clamp64 (sat : Bool) (x : Int) : W64 :=
  if sat then BitVec.ofInt 64 (max (-(2 ^ 63)) (min x (2 ^ 63 - 1))) else BitVec.ofInt 64 x

/-- S[d][31:0] ← a float result, upper half zero, its flags into FX (R158). -/
def scalarFloat (i : Instr) (g : BitVec 4) (d : BitVec 6) (f : State → W32 × Nat) (s : State) : Out :=
  run i g .scalar s (fun t => .done ((t.setS d ((f t).1.zeroExtend 64)).addFx (f t).2))

/-! Vector operations: an effect on the guarded lanes of V[d]. -/

/-- V[d][i] ← f i in the guarded lanes (R140). -/
def vectorOp (i : Instr) (g : BitVec 4) (d : BitVec 5) (f : State → Nat → W32) (s : State) : Out :=
  run i g .lanes s (fun t => .done (t.setV d (t.guard g) (f t)))

/-- V[d][i] ← a float result in the guarded lanes, the lanes' flags into FX (R136). -/
def vectorFloat (i : Instr) (g : BitVec 4) (d : BitVec 5) (f : State → Nat → W32 × Nat) (s : State) : Out :=
  run i g .lanes s (fun t =>
    .done ((t.setV d (t.guard g) (fun j => (f t j).1)).addFx (laneFx (t.guard g) (fun j => (f t j).2))))

end Sys2Proof.Machine
end

