-- ==== Sys2Proof/Machine/Integer.lean ====
section
/-!
DEFINITION. Integer and predicate instructions (R92 to R105).
-/

namespace Sys2Proof.Machine

/-! Major 0x04 (R95, R96), with MOD.SAT (R93). -/

def execAdd (g : BitVec 4) (d a b : BitVec 6) (s : State) : Out :=
  scalarOp (.add g d a b) g d (fun t => clamp64 t.sat ((t.getS a).toInt + (t.getS b).toInt)) s
def execSub (g : BitVec 4) (d a b : BitVec 6) (s : State) : Out :=
  scalarOp (.sub g d a b) g d (fun t => clamp64 t.sat ((t.getS a).toInt - (t.getS b).toInt)) s
def execMul (g : BitVec 4) (d a b : BitVec 6) (s : State) : Out :=
  scalarOp (.mul g d a b) g d (fun t => clamp64 t.sat ((t.getS a).toInt * (t.getS b).toInt)) s
def execMulh (g : BitVec 4) (d a b : BitVec 6) (s : State) : Out :=
  scalarOp2 (.mulh g d a b) g d a b (fun x y => BitVec.ofInt 64 (x.toInt * y.toInt / 2 ^ 64)) s
def execMulhu (g : BitVec 4) (d a b : BitVec 6) (s : State) : Out :=
  scalarOp2 (.mulhu g d a b) g d a b (fun x y => BitVec.ofNat 64 (x.toNat * y.toNat / 2 ^ 64)) s

/-- Signed division toward zero, with the fixed results of R96. -/
def divS (x y : W64) : W64 := if y = 0 then -1 else BitVec.ofInt 64 (x.toInt.tdiv y.toInt)
def divU (x y : W64) : W64 := if y = 0 then -1 else BitVec.ofNat 64 (x.toNat / y.toNat)
def remS (x y : W64) : W64 := if y = 0 then x else BitVec.ofInt 64 (x.toInt.tmod y.toInt)
def remU (x y : W64) : W64 := if y = 0 then x else BitVec.ofNat 64 (x.toNat % y.toNat)

def execDiv (g : BitVec 4) (d a b : BitVec 6) (s : State) : Out := scalarOp2 (.div g d a b) g d a b divS s
def execDivu (g : BitVec 4) (d a b : BitVec 6) (s : State) : Out := scalarOp2 (.divu g d a b) g d a b divU s
def execRem (g : BitVec 4) (d a b : BitVec 6) (s : State) : Out := scalarOp2 (.rem g d a b) g d a b remS s
def execRemu (g : BitVec 4) (d a b : BitVec 6) (s : State) : Out := scalarOp2 (.remu g d a b) g d a b remU s
def execAnd (g : BitVec 4) (d a b : BitVec 6) (s : State) : Out :=
  scalarOp2 (.and g d a b) g d a b (fun x y => x &&& y) s
def execOr (g : BitVec 4) (d a b : BitVec 6) (s : State) : Out :=
  scalarOp2 (.or g d a b) g d a b (fun x y => x ||| y) s
def execXor (g : BitVec 4) (d a b : BitVec 6) (s : State) : Out :=
  scalarOp2 (.xor g d a b) g d a b (fun x y => x ^^^ y) s

/-- The shift amount S[b][5:0]. -/
def shamt (y : W64) : Nat := y.toNat % 64

def execShl (g : BitVec 4) (d a b : BitVec 6) (s : State) : Out :=
  scalarOp2 (.shl g d a b) g d a b (fun x y => x <<< shamt y) s
def execShr (g : BitVec 4) (d a b : BitVec 6) (s : State) : Out :=
  scalarOp2 (.shr g d a b) g d a b (fun x y => x >>> shamt y) s
def execSar (g : BitVec 4) (d a b : BitVec 6) (s : State) : Out :=
  scalarOp2 (.sar g d a b) g d a b (fun x y => x.sshiftRight (shamt y)) s
def execRot (g : BitVec 4) (d a b : BitVec 6) (s : State) : Out :=
  scalarOp2 (.rot g d a b) g d a b (fun x y => x.rotateLeft (shamt y)) s

/-! Major 0x05 (R97 to R99) and SEL (R100). -/

def execMin (g : BitVec 4) (d a b : BitVec 6) (s : State) : Out :=
  scalarOp2 (.min g d a b) g d a b (fun x y => if x.sle y then x else y) s
def execMax (g : BitVec 4) (d a b : BitVec 6) (s : State) : Out :=
  scalarOp2 (.max g d a b) g d a b (fun x y => if y.sle x then x else y) s
def execMinu (g : BitVec 4) (d a b : BitVec 6) (s : State) : Out :=
  scalarOp2 (.minu g d a b) g d a b (fun x y => if x.ule y then x else y) s
def execMaxu (g : BitVec 4) (d a b : BitVec 6) (s : State) : Out :=
  scalarOp2 (.maxu g d a b) g d a b (fun x y => if y.ule x then x else y) s

/-- Leading zeros of a value of n bits. -/
def clzGo (x : Nat) : Nat → Nat
  | 0 => 0
  | n + 1 => if x.testBit n then 0 else 1 + clzGo x n
/-- Trailing zeros, counted up to n bits from bit i. -/
def ctzGo (x i : Nat) : Nat → Nat
  | 0 => 0
  | n + 1 => if x.testBit i then 0 else 1 + ctzGo x (i + 1) n
def popc (x : W64) : Nat := ((fromTo 0 64).filter (fun i => x.getLsbD i)).length

def execClz (g : BitVec 4) (d a : BitVec 6) (s : State) : Out :=
  scalarOp (.clz g d a) g d (fun t => BitVec.ofNat 64 (clzGo (t.getS a).toNat 64)) s
def execCtz (g : BitVec 4) (d a : BitVec 6) (s : State) : Out :=
  scalarOp (.ctz g d a) g d (fun t => BitVec.ofNat 64 (ctzGo (t.getS a).toNat 0 64)) s
def execPopc (g : BitVec 4) (d a : BitVec 6) (s : State) : Out :=
  scalarOp (.popc g d a) g d (fun t => BitVec.ofNat 64 (popc (t.getS a))) s
def execMov (g : BitVec 4) (d a : BitVec 6) (s : State) : Out := scalarOp (.mov g d a) g d (fun t => t.getS a) s

/-- Position and effective length of a field descriptor (R98). -/
def fieldPos (y : W64) : Nat := fld y 5 0
def fieldLen (y : W64) : Nat := min (if fld y 13 8 = 0 then 64 else fld y 13 8) (64 - fieldPos y)
def fieldOf (x y : W64) : Nat := x.toNat / 2 ^ fieldPos y % 2 ^ fieldLen y

def execExt (g : BitVec 4) (d a b : BitVec 6) (s : State) : Out :=
  scalarOp2 (.ext g d a b) g d a b (fun x y => BitVec.ofNat 64 (fieldOf x y)) s
def execExtS (g : BitVec 4) (d a b : BitVec 6) (s : State) : Out :=
  scalarOp2 (.extS g d a b) g d a b (fun x y => sext64 (BitVec.ofNat 64 (fieldOf x y)) (fieldLen y)) s
/-- INS's result from the old S[d] (R98). -/
def insField (old x y : W64) : W64 :=
  let mask : W64 := BitVec.ofNat 64 ((2 ^ fieldLen y - 1) * 2 ^ fieldPos y)
  (old &&& ~~~mask) ||| ((x <<< fieldPos y) &&& mask)
def execIns (g : BitVec 4) (d a b : BitVec 6) (s : State) : Out :=
  scalarOp (.ins g d a b) g d (fun t => insField (t.getS d) (t.getS a) (t.getS b)) s
def execLea (g : BitVec 4) (d a b : BitVec 6) (sc : BitVec 2) (s : State) : Out :=
  scalarOp2 (.lea g d a b sc) g d a b (fun x y => x + (y <<< sc.toNat)) s
def execSel (g : BitVec 4) (d a b : BitVec 6) (n : BitVec 1) (q : BitVec 3) (s : State) : Out :=
  scalarOp (.sel g d a b n q) g d
    (fun t => if (t.getP q).getLsbD 0 != (n == 1) then t.getS a else t.getS b) s

/-! Immediates (R101, R102). -/

def execAddi (g : BitVec 4) (d a : BitVec 6) (i : BitVec 10) (s : State) : Out :=
  scalarOp (.addi g d a i) g d (fun t => clamp64 t.sat ((t.getS a).toInt + (t.imm i).toInt)) s
def execMovi (g : BitVec 4) (d : BitVec 6) (i : BitVec 10) (s : State) : Out :=
  scalarOp (.movi g d i) g d (fun t => t.imm i) s
def execAndi (g : BitVec 4) (d a : BitVec 6) (i : BitVec 10) (s : State) : Out :=
  scalarOp (.andi g d a i) g d (fun t => t.getS a &&& t.imm i) s
def execOri (g : BitVec 4) (d a : BitVec 6) (i : BitVec 10) (s : State) : Out :=
  scalarOp (.ori g d a i) g d (fun t => t.getS a ||| t.imm i) s
def execXori (g : BitVec 4) (d a : BitVec 6) (i : BitVec 10) (s : State) : Out :=
  scalarOp (.xori g d a i) g d (fun t => t.getS a ^^^ t.imm i) s
def execShli (g : BitVec 4) (d a : BitVec 6) (n : BitVec 6) (s : State) : Out :=
  scalarOp (.shli g d a n) g d (fun t => t.getS a <<< n.toNat) s
def execShri (g : BitVec 4) (d a : BitVec 6) (n : BitVec 6) (s : State) : Out :=
  scalarOp (.shri g d a n) g d (fun t => t.getS a >>> n.toNat) s
def execSari (g : BitVec 4) (d a : BitVec 6) (n : BitVec 6) (s : State) : Out :=
  scalarOp (.sari g d a n) g d (fun t => (t.getS a).sshiftRight n.toNat) s

/-! Compares (R103, R104). Under g = 0b1111 they do nothing (R60; log 11). -/

def execCmp (g : BitVec 4) (p e : BitVec 3) (a b : BitVec 6) (c : BitVec 4) (s : State) : Out :=
  run (.cmp g p e a b c) g .own s (fun t =>
    .done (t.setPair p e (t.holds g) (ccBits 64 c.toNat (t.getS a) (t.getS b))))
def execCmpi (g : BitVec 4) (p e : BitVec 3) (a : BitVec 6) (i : BitVec 6) (c : BitVec 4) (s : State) : Out :=
  run (.cmpi g p e a i c) g .own s (fun t =>
    .done (t.setPair p e (t.holds g) (ccBits 64 c.toNat (t.getS a) (t.imm i))))

/-! Predicates (R105). -/

def execPand (g : BitVec 4) (d a b : BitVec 3) (s : State) : Out :=
  run (.pand g d a b) g .lanes s (fun t =>
    .done (t.setPMask d (t.guard g) (fun i => (t.getP a &&& t.getP b).getLsbD i)))
def execPor (g : BitVec 4) (d a b : BitVec 3) (s : State) : Out :=
  run (.por g d a b) g .lanes s (fun t =>
    .done (t.setPMask d (t.guard g) (fun i => (t.getP a ||| t.getP b).getLsbD i)))
def execPxor (g : BitVec 4) (d a b : BitVec 3) (s : State) : Out :=
  run (.pxor g d a b) g .lanes s (fun t =>
    .done (t.setPMask d (t.guard g) (fun i => (t.getP a ^^^ t.getP b).getLsbD i)))
def execPnot (g : BitVec 4) (d a : BitVec 3) (s : State) : Out :=
  run (.pnot g d a) g .lanes s (fun t => .done (t.setPMask d (t.guard g) (fun i => !(t.getP a).getLsbD i)))

/-- NOP (R60). -/
def execNop (s : State) : Out := run .nop 15 .own s (fun t => .done t)

/-! Prefixes (R65 to R71). -/

def execImm (p : BitVec 26) (s : State) : Out := issuePrefix (.imm p) s
def execOnnr (o : BitVec 26) (s : State) : Out := issuePrefix (.onnr o) s
def execHint (u : BitVec 3) (l : BitVec 2) (k : BitVec 1) (s : State) : Out := issuePrefix (.hint u l k) s
def execMod (m : BitVec 3) (sa : BitVec 1) (c : BitVec 2) (s : State) : Out := issuePrefix (.mod m sa c) s

end Sys2Proof.Machine
end

