-- ==== Sys2Proof/Machine/Home.lean ====
section
/-!
DEFINITION. The home agent of a line: one culture event taken as one step (R263 to R265), and the acquire events of an
acquire (R232). Values do not pass through the caches of this model: every read takes the memory's value, so a culture
action changes the directory, the caches' lists of lines and the side store only (log 6). Also the caches themselves
(R197 to R200): which lines an L1 and a slice hold, dirty or not, compressed or not.
-/

namespace Sys2Proof.Machine

/-! Caches (R197 to R200). -/

/-- The eight 8-byte words of 64 bytes, or their sixteen 4-byte words. -/
def State.lineWords (s : State) (line size : Nat) : List Nat :=
  (fromTo 0 (64 / size)).map (fun j => s.peek (64 * line + size * j) size)
/-- Some base has signed deltas for all of some words, modulo m, that span no more than `span`. -/
def within (m : Nat) (l : List Nat) (span : Nat) : Bool := l.any (fun b => l.all (fun w => (w + m - b) % m ≤ span))
/-- A line compresses to 32 bytes (R200): forms 0, 1, 3 and 2. -/
def State.compresses (s : State) (line : Nat) : Bool :=
  within (2 ^ 64) (s.lineWords line 8) 0xFFFF || within (2 ^ 32) (s.lineWords line 4) 0xFF

/-- Slots of an L2 slice in use: one for each line at full size, one for two compressed ones (R199). -/
def slotsUsed (l : List L2Line) : Nat :=
  (l.filter (fun x => !x.half)).length + ((l.filter (fun x => x.half)).length + 1) / 2

/-- A context of core n reserves the line (R40). -/
def Core.reserves (c : Core) (line : Nat) : Bool :=
  c.ctxs.any (fun x => match x.2.resv with | some r => r.lines.contains line | none => false)

/-- A 64-byte line that a stack reads or writes for a VF (R303). -/
def State.chargeLine (s : State) (vf line : Nat) : State :=
  if isHbm (64 * line) then s.modUsage vf (fun u => { u with hbmb := u.hbmb + 64 }) else s

/-- A tile's copy of a line is dirty, in its slice or in an L1 under it (R197). -/
def State.dirtyIn (s : State) (t line : Nat) : Bool :=
  (s.tile t).l2.any (fun l => l.line == line && l.dirty) ||
    s.cores.any (fun c => tileOf c.1 == t && c.2.l1.any (fun l => l.line == line && l.dirty))

/-- A participant's slice, and the L1s under it, lose a line; a dirty one is written back, its data being in memory
already (R303; log 6). A participant that was asked for the line has woken to answer (R279). Participant 48 is the hub's
CXL side. -/
def State.dropLine (s : State) (part line : Nat) : State :=
  if part ≥ 48 then s
  else
    let s0 := if s.dirtyIn part line then
        (match (s.tile part).l2.find? (fun l => l.line == line) with | some l => s.chargeLine l.vf line | none => s) else s
    let s1 := (s0.poisonByLine line).modTile part (fun t =>
      { t with l2 := t.l2.filter (fun l => l.line != line), blocks := t.blocks.filter (fun l => l != line), gated := false })
    { s1 with cores := s1.cores.map (fun c =>
        if tileOf c.1 = part then (c.1, { c.2 with l1 := c.2.l1.filter (fun l => l.line != line) }) else c) }

/-- A participant's slice takes a line, not compressed. -/
def State.takeLine (s : State) (part line : Nat) : State :=
  if part ≥ 48 then s
  else s.modTile part (fun t => if t.hasLine line then t else { t with l2 := ⟨line, false, false, false, 0⟩ :: t.l2 })

/-! One culture event at a home. -/

/-- The words of a line that a write's bytes touch, registered to the writer (R267). -/
def DirEntry.register (e : DirEntry) (p mask : Nat) : Map Nat :=
  ((fromTo 0 16).filter (fun i => bits mask (4 * i + 3) (4 * i) ≠ 0)).foldl (fun m i => mapSet m i p) e.words

/-- The messages of network 1 that an action sends (R264): INV to every sharer but the requester, UPD to every sharer,
RCL to the owner, FWD to the owner or the registrants. -/
def DirEntry.told (e : DirEntry) (w : W32) (req : Option Nat) : List Nat × List Nat × List Nat :=
  let inv := if actBit w 25 then e.sharers.filter (fun p => some p != req) else []
  let rcl := if actBit w 24 then e.owner.toList else []
  let fwd := if actBit w 23 then (match e.owner with | some o => [o] | none => (e.words.map (fun (x : Nat × Nat) => x.2)).dedup).filter
    (fun p => some p != req) else []
  ((inv ++ rcl).dedup, if actBit w 22 then e.sharers else [], fwd)

/-- The directory entry after an action (R264) for event `ev`: `req` is the requester, `mask` the bytes of the line that
its request writes, `more` says that the next state is TRANS. A wait lasts until the ACK or DATA that leads out of the
TRANS states; an RCL and a FWD are answered by DATA, whether or not the action counts acknowledgements. DACT 7 registers
the words written to the requester; DACT 4 and 6 empty the private buffers and copies. -/
def DirEntry.act (e : DirEntry) (w : W32) (req : Option Nat) (ev mask : Nat) (more : Bool) : DirEntry :=
  let data := actBit w 24 || actBit w 23
  let enters := actBit w 12 || data
  let ends := ev ≥ 14 && !more
  let m := e.told w req
  let sharers :=
    match bits w.toNat 15 14 with
    | 0 => e.sharers
    | 1 => (match req with | some r => if e.sharers.contains r then e.sharers else r :: e.sharers | none => e.sharers)
    | 2 => (match req with | some r => [r] | none => [])
    | _ => []
  let d := dact w
  { e with
    state := bits w.toNat 31 28,
    sharers := sharers,
    owner := if actBit w 13 then req else if bits w.toNat 15 14 = 3 || actBit w 24 then none else e.owner,
    requester := if enters then req else if ends then none else e.requester,
    wait := if actBit w 12 then (m.1 ++ m.2.1 ++ m.2.2).dedup
      else if data then ((if actBit w 24 then e.owner.toList else []) ++ m.2.2).dedup
      else if ends then [] else e.wait,
    drops := if enters then m.1 else if ends then [] else e.drops,
    dataDue := if enters then data else e.dataDue && ev ≠ 15 && !ends,
    sent := if enters || ends then [] else e.sent,
    words := if d = 7 then (match req with | some r => e.register r mask | none => e.words)
      else if d = 4 || d = 5 || d = 6 then [] else e.words,
    masks := if d = 6 then [] else e.masks,
    reds := if d = 4 then [] else e.reds,
    partials := if actBit w 27 || actBit w 26 then e.partials.filter (fun p => some p != req) else e.partials }

/-- Who holds a copy of the line or private state for it. -/
def DirEntry.holders (e : DirEntry) : List Nat :=
  (e.sharers ++ e.owner.toList ++ e.words.map (fun x => x.2) ++ e.masks.map (fun x => x.1) ++ e.reds).dedup

/-- The entry with no copy and no private state left: SEALED for a sealed line of WONCE, else I (R267). -/
def DirEntry.empty (e : DirEntry) (slot : Nat) : DirEntry :=
  { e with state := if slot = 3 && e.sealed then 2 else 0, sharers := [], owner := none, words := [], masks := [], reds := [],
           partials := [] }

/-- The entry when a participant has given the line up. -/
def DirEntry.without (e : DirEntry) (slot p : Nat) : DirEntry :=
  let f : DirEntry := { e with
    sharers := e.sharers.filter (fun x => x ≠ p), owner := if e.owner = some p then none else e.owner,
    words := e.words.filter (fun x => x.2 ≠ p), masks := mapErase e.masks p, reds := e.reds.filter (fun x => x ≠ p),
    partials := e.partials.filter (fun x => x ≠ p) }
  if f.holders.isEmpty then f.empty slot else f

/-- One more sharer, whose copy is whole. -/
def DirEntry.share (e : DirEntry) (p : Nat) : DirEntry :=
  { e with sharers := if e.sharers.contains p then e.sharers else p :: e.sharers,
           partials := e.partials.filter (fun x => x ≠ p) }

/-- An ACQ under WOWN leaves a participant's copy nothing but the words registered to it (R267). -/
def DirEntry.strip (e : DirEntry) (p : Nat) : DirEntry :=
  { e with partials := if e.partials.contains p then e.partials else p :: e.partials }
/-- A participant's copy holds every word that some bytes touch. -/
def DirEntry.covers (e : DirEntry) (p mask : Nat) : Bool :=
  !e.partials.contains p || (fromTo 0 16).all (fun i => bits mask (4 * i + 3) (4 * i) = 0 || mapGet e.words i == some p)

/-- A participant becomes sole holder and owner, in the state numbered `m`. -/
def DirEntry.own (e : DirEntry) (slot m p : Nat) : DirEntry × List Nat :=
  ({ e.empty slot with state := m, sharers := [p], owner := some p }, e.holders.filter (fun x => x ≠ p))

/-- A write under BMASK (R267): a writer alone owns the line; writers that contend keep private copies with byte masks,
which the home merges at the first overlap. -/
def DirEntry.maskWrite (e : DirEntry) (p mask : Nat) : DirEntry × List Nat :=
  if e.masks.isEmpty && (e.owner.isNone || e.owner = some p) then e.own 4 2 p
  else if e.masks.any (fun x => x.1 ≠ p && x.2 &&& mask ≠ 0) then e.own 4 2 p
  else
    let held := match e.owner with
      | some o => if o ≠ p then mapSet e.masks o ((mapGet e.masks o).getD 0) else e.masks
      | none => e.masks
    ({ e.share p with state := 3, owner := none, masks := mapSet held p ((mapGet held p).getD 0 ||| mask) }, [])

/-- What a request leaves at the home of a line under a stock culture, and who loses the line, as R267 states each
culture's behaviour; where it states none, no copy outlives a write at the home (log 14). -/
def DirEntry.stock (e : DirEntry) (slot ev : Nat) (req : Option Nat) (mask : Nat) : DirEntry × List Nat :=
  let p := req.getD 48
  let gone := (e.empty slot, e.holders)
  match ev with
  | 0 | 5 =>
    if slot = 2 then (if ev = 0 then e.own 2 1 p else gone)
    else if slot = 4 && !e.masks.isEmpty then
      if (mapGet e.masks p).isSome then (e, [])
      else ({ e.empty 4 with state := 1, sharers := [p] }, e.holders.filter (fun x => x ≠ p))
    else if slot = 6 && !e.reds.isEmpty then ({ e.share p with state := 1, reds := [] }, [])
    else match e.owner with
      | some o =>
        if o = p then (e, [])
        else ({ (e.without slot o).share p with state := 1 }, [o])
      | none => ({ e.share p with state := 1 }, [])
  | 1 | 2 =>
    match slot with
    | 0 => if ev = 1 then e.own 0 2 p else gone
    | 2 => if ev = 1 then e.own 2 1 p else gone
    | 1 => (e, [])
    | 4 => if ev = 2 && e.masks.isEmpty && (e.owner.isNone || e.owner = some p) then gone else e.maskWrite p mask
    | 5 => ({ e.share p with state := 1, words := e.register p mask }, [])
    | _ => gone
  | 4 => if slot = 6 then ({ e.empty 6 with state := 2, reds := if e.reds.contains p then e.reds else p :: e.reds },
        e.sharers) else if slot = 1 then (e, []) else gone
  | 3 | 6 | 7 => if slot = 1 then (e, []) else gone
  | 8 | 9 => (e.without slot p, [])
  | 10 =>
    if slot = 5 then (if e.words.any (fun x => x.2 == p) then (e.strip p, []) else (e.without 5 p, [p]))
    else if slot = 6 then (if e.reds.isEmpty then (e, []) else
      ({ e with state := if e.sharers.isEmpty then 0 else 1, reds := [] }, []))
    else (e, [])
  | 11 => if slot = 6 && !e.reds.isEmpty then ({ e with state := if e.sharers.isEmpty then 0 else 1, reds := [] }, []) else (e, [])
  | 12 | 13 => gone
  | _ => (e, [])

/-- The messages of a wait that is entered go out now (R279). -/
def DirEntry.sentAt (e : DirEntry) (now : Nat) : DirEntry :=
  { e with sent := e.wait.foldl (fun m p => mapSet m p (now, 0)) [] }

/-- A culture event at a line's home, as one step: the stock cultures by what R267 states of them, except where it prints
the word or the line is in a transient state; else the action word. An entry that is not defined has no action. `mask`
holds the bytes of the line that a write writes. -/
def State.cultureAct (s : State) (line ev : Nat) (req : Option Nat) (mask : Nat := 2 ^ 64 - 1) : State :=
  let e := s.dirOf line
  let slot := s.rangeSlot (64 * line)
  let w := s.actionWord slot e.state ev
  if slot < 7 && !(slot = 0 && (invWord e.state ev).isSome) && !s.transient slot e.state then
    let r := e.stock slot ev req mask
    let s1 := r.2.foldl (fun t p => t.dropLine p line) (s.setDir line { r.1 with slot := slot })
    match req with
    | some p => if ev ≤ 1 && r.1.sharers.contains p then s1.takeLine p line else s1
    | none => s1
  else if actBit w 0 then
    let f : DirEntry := { e.act w req ev mask (s.transient slot (bits w.toNat 31 28)) with slot := slot }
    let s1 := s.setDir line (if actBit w 12 || actBit w 24 || actBit w 23 then f.sentAt s.hub.now else f)
    let s2 := if actBit w 27 || actBit w 26 then (match req with | some r => s1.takeLine r line | none => s1) else s1
    if actBit w 25 && !actBit w 12 then
      (e.sharers.filter (fun p => some p != req)).foldl (fun t p => t.dropLine p line) s2
    else s2
  else s

/-- A participant answers a message of a wait: it wakes (R279), and gives the line up where the message was INV or RCL. -/
def State.answers (s : State) (e : DirEntry) (line p : Nat) : State :=
  if e.drops.contains p then s.dropLine p line
  else if p < 48 then s.modTile p (fun x => { x with gated := false }) else s

/-- A line's wait ends: the participants asked answer, and DATA and ACK lead out of the TRANS states (R266 check 4). -/
def State.endWait (s : State) (line : Nat) : Nat → State
  | 0 => s
  | n + 1 =>
    let e := s.dirOf line
    if s.transient (s.rangeSlot (64 * line)) e.state || e.dataDue then
      ((e.wait.foldl (fun t p => t.answers e line p) s).cultureAct line (if e.dataDue then 15 else 14) e.requester).endWait
        line n
    else s

/-- A request is served at a line's home: after the wait that the line is in, and to the end of the wait that it enters,
as one step (R264, R398; log 38). -/
def State.homeStep (s : State) (line ev : Nat) (req : Option Nat) (mask : Nat := 2 ^ 64 - 1) : State :=
  ((s.endWait line 4).cultureAct line ev req mask).endWait line 4

/-- A line pinned in a tile's slice by a fetch slot (R171). -/
def State.pinnedLine (s : State) (t line : Nat) : Bool :=
  (tileQuads t).any (fun q => (s.quad q).slots.any (fun f =>
    f.2.pinned && f.2.pages.any (fun p => p.2 / 4096 == line / 64)))

/-- A slice above its 65,536 slots gives up its oldest lines that are neither pinned nor reserved (R199, R200; log 10): a
dirty one by a write-back, a clean one by a notice (R197, R263). -/
def State.trimL2 (s : State) (t : Nat) : Nat → State
  | 0 => s
  | n + 1 =>
    if slotsUsed (s.tile t).l2 ≤ 65536 then s
    else
      match (s.tile t).l2.reverse.find? (fun x =>
        !s.pinnedLine t x.line && !s.cores.any (fun c => tileOf c.1 == t && c.2.reserves x.line)) with
      | some x => ((s.dropLine t x.line).homeStep x.line (if s.dirtyIn t x.line then 9 else 8) (some t)).trimL2 t n
      | none => s
/-- A slice within its slots. -/
def State.trimmed (s : State) (t : Nat) : State := s.trimL2 t (s.tile t).l2.length

/-- The slice of a participant within its slots. -/
def State.trimOf (s : State) (p : Option Nat) : State :=
  match p with
  | some t => if t < 48 then s.trimmed t else s
  | none => s

/-- A request is served at a line's home, and the slices of the requester and of one that waited are kept within their
slots. -/
def State.homeServe (s : State) (line ev : Nat) (req : Option Nat) (mask : Nat := 2 ^ 64 - 1) : State :=
  ((s.homeStep line ev req mask).trimOf req).trimOf (s.dirOf line).requester

/-- One event at a line's home, as one action that may enter a wait or lead on in one, slices kept within their slots. -/
def State.homeEvent (s : State) (line ev : Nat) (req : Option Nat) (mask : Nat := 2 ^ 64 - 1) : State :=
  (s.cultureAct line ev req mask).trimOf req

/-- The home answers a request with a retry (RTY, R264): the line is in a wait, or the culture's word says so. -/
def State.retriesAt (s : State) (line ev : Nat) : Bool :=
  let slot := s.rangeSlot (64 * line)
  let st := (s.dirOf line).state
  (slot ≥ 7 || s.transient slot st) && actBit (s.actionWord slot st ev) 20

/-- Cores of other tiles than participant `part`'s with a context that reserves the line (R40). -/
def State.reservers (s : State) (line : Nat) (part : Option Nat) : List Nat :=
  (s.cores.filter (fun c => some (tileOf c.1) != part && c.2.reserves line)).map (fun c => c.1)

/-- The home defers a request (R40): to serve it would take the line, or its ownership, from a tile in which a context
reserves it. -/
def State.deferred (s : State) (line ev : Nat) (req : Option Nat) (mask : Nat := 2 ^ 64 - 1) : Bool :=
  let l := s.reservers line req
  !l.isEmpty &&
    (let t := s.homeStep line ev req mask
     l.any (fun c =>
       let p := tileOf c
       ((s.tile p).hasLine line && !(t.tile p).hasLine line) ||
         ((s.dirOf line).owner == some p && (t.dirOf line).owner != some p)))

/-- The bytes of a line that some runs write, as a mask. -/
def lineMask (runs : List (Nat × Nat)) (line : Nat) : Nat :=
  ((fromTo 0 64).filter (fun j => runs.any (fun r => r.1 ≤ 64 * line + j && 64 * line + j < r.1 + r.2))).foldl
    (fun m j => m + 2 ^ j) 0

/-- A request for some runs meets a retry, or a line whose home defers it for a reservation (R40, R398). -/
def State.homeBusy (s : State) (runs : List (Nat × Nat)) (ev : Nat) (req : Option Nat) : Bool :=
  (linesOf runs).any (fun l => (isHbm (64 * l) || isHost (64 * l)) &&
    (s.retriesAt l ev || s.deferred l ev req (lineMask runs l)))

/-- The lines of some runs for which a tile asks their homes, of a read those of which its slice does not hold every word;
and whether a home answers one with a retry or defers it. -/
def State.asked (s : State) (t : Nat) (runs : List (Nat × Nat)) (ev : Nat) : List Nat :=
  (linesOf runs).filter (fun l => ev ≠ 0 || !(s.tile t).hasLine l || !(s.dirOf l).covers t (lineMask runs l))
def State.askBusy (s : State) (t : Nat) (runs : List (Nat × Nat)) (ev : Nat) : Bool :=
  s.homeBusy ((s.asked t runs ev).map (fun l => (64 * l, 64))) ev (some t)

/-- The requests of a device access at the homes of the lines of some runs of HBM and host memory. -/
def State.serveRuns (s : State) (runs : List (Nat × Nat)) (ev : Nat) (req : Option Nat) : State :=
  (linesOf runs).foldl (fun t l =>
    if isHbm (64 * l) || isHost (64 * l) then t.homeServe l ev req (lineMask runs l) else t) s

/-! Lines on their way into the caches and out of them. -/

/-- Marks a line of a tile's slice. -/
def State.markL2 (s : State) (t line : Nat) (f : L2Line → L2Line) : State :=
  s.modTile t (fun x => { x with l2 := x.l2.map (fun l => if l.line = line then f l else l) })

/-- A line of a slice is dirty with the bytes that memory has: compressed where its page allows it and they fit (R199,
R200). -/
def State.settleL2 (s : State) (t line : Nat) : State :=
  s.markL2 t line (fun l => { l with dirty := true, half := l.cmp && s.compresses line })

/-- An L1 above its 1,024 lines gives up its oldest line that no context reserves, under fusion none of its quad (R40,
R197, R198); a dirty one is written back to the slice. -/
def State.trimL1 (s : State) (m : Nat) : State :=
  let c := s.core m
  if c.l1.length ≤ 1024 then s
  else
    let users := if (s.quad (quadOf m)).fused then quadCores (quadOf m) else [m]
    match c.l1.reverse.find? (fun x => !users.any (fun n => (s.core n).reserves x.line)) with
    | some x =>
      let s1 := s.modCore m (fun y => { y with l1 := y.l1.filter (fun z => z.line != x.line) })
      if x.dirty then (s1.settleL2 (tileOf m) x.line).trimmed (tileOf m) else s1
    | none => s

/-- A line enters the L1 that may hold it for core n. -/
def State.fillL1 (s : State) (n line : Nat) : State :=
  let m := s.l1Core n line
  if (s.core m).hasLine line then s
  else (s.modCore m (fun c => { c with l1 := ⟨line, false⟩ :: c.l1 })).trimL1 m

/-- A tile reads a line (R197, R199): a hit in its slice, or a read miss, event RD at the home, whose fill is compressed
where the page allows it; a line of HBM that a stack reads is charged to the VF (R303). -/
def State.fillL2 (s : State) (t vf line : Nat) (cmp : Bool) : State :=
  if (s.tile t).hasLine line then s
  else
    let s1 := s.homeServe line 0 (some t)
    let s2 := (s1.takeLine t line).markL2 t line (fun l => { l with half := cmp && s1.compresses line, cmp := cmp })
    (s2.chargeLine vf line).trimmed t

/-- A context of core n reads a line of a VF under a cache policy (R71): 1 keeps it out of L1, 3 out of the slice too. A
handler's accesses go through the L1 of its AWAY context's core: R14 gives a service core none, and R197 does not say
(DESIGN CHOICE, log 65). -/
def State.readLine (s : State) (n vf cache line : Nat) (cmp : Bool) : State :=
  if (s.core (s.l1Core n line)).hasLine line then s
  else
    let t := tileOf n
    let s1 := s.fillL2 t vf line cmp
    if cache = 3 && !(s.tile t).hasLine line then (s1.dropLine t line).homeServe line 8 (some t)
    else if cache = 1 || cache = 3 then s1 else s1.fillL1 n line

/-- A copy that lacks a word to be read, as an ACQ under WOWN has left it, goes before the read (R267). -/
def State.refresh (s : State) (t line : Nat) (mask : Nat) : State :=
  if (s.tile t).hasLine line && !(s.dirOf line).covers t mask then s.dropLine t line else s

/-- A context's read of runs of HBM and host memory passes through its caches. -/
def State.readRuns (s : State) (n vf cache : Nat) (runs : List (Nat × Nat × Bool)) : State :=
  runs.foldl (fun t r => (linesOf [(r.1, r.2.1)]).foldl (fun u l =>
    if isHbm (64 * l) || isHost (64 * l) then
      (u.refresh (tileOf n) l (lineMask [(r.1, r.2.1)] l)).readLine n vf cache l r.2.2
    else u) t) s

/-- A context of core n owns a line and writes it for a VF (R197): dirty in L1, or under policies 1 and 2 in the slice. -/
def State.dirtyLine (s : State) (n cache vf line : Nat) (cmp : Bool) : State :=
  let t := tileOf n
  if (s.dirOf line).owner = some t then
    let s1 := ((s.poisonByWord line).takeLine t line).modTile t (fun x => { x with blocks := x.blocks.filter (fun l => l != line) })
    let s2 := s1.markL2 t line (fun l => { l with vf := vf, cmp := cmp, dirty := l.dirty || cache ≠ 0 })
    if cache = 0 then
      let m := s2.l1Core n line
      ((s2.fillL1 n line).modCore m (fun c =>
        { c with l1 := c.l1.map (fun x => if x.line = line then { x with dirty := true } else x) })).trimmed t
    else s2.trimmed t
  else s

/-- After a write, the slice's dirty copies of its lines that no L1 under it holds dirty have the new bytes (R199). -/
def State.settleLines (s : State) (t : Nat) (runs : List (Nat × Nat)) : State :=
  ((linesOf runs).foldl (fun u l =>
    if (u.tile t).l2.any (fun x => x.line == l && x.dirty) &&
        !u.cores.any (fun c => tileOf c.1 == t && c.2.l1.any (fun x => x.line == l && x.dirty)) then u.settleL2 t l else u) s).trimmed t

/-- A participant owns a line, in no wait: its writes of the line ask nothing. -/
def State.ownsLine (s : State) (t line : Nat) : Bool :=
  (s.dirOf line).owner = some t && !s.transient (s.rangeSlot (64 * line)) (s.dirOf line).state

/-- A request that meets a retry takes the culture's action for it (R264, R398). -/
def State.askAgain (s : State) (lines : List Nat) (ev : Nat) (req : Option Nat) : State :=
  lines.foldl (fun t l =>
    if (isHbm (64 * l) || isHost (64 * l)) && t.retriesAt l ev then t.homeEvent l ev req else t) s

/-- A context's writes of runs ask for the lines it does not own (event RDX), which a stack reads where the tile has no
copy (R303), and dirty those it comes to own. -/
def State.ownRuns (s : State) (n cache vf : Nat) (cmps : List Nat) (runs : List (Nat × Nat)) : State :=
  let t := tileOf n
  (linesOf runs).foldl (fun u l =>
    if isHbm (64 * l) || isHost (64 * l) then
      (if u.ownsLine t l then u
       else (if (u.tile t).hasLine l then u else u.chargeLine vf l).homeServe l 1 (some t) (lineMask runs l)).dirtyLine n cache
        vf l (cmps.contains l)
    else u) s

/-- Lines of HBM that a stack reads or writes for a VF (R303). -/
def State.chargeHbm (s : State) (vf : Nat) (runs : List (Nat × Nat)) : State :=
  (linesOf runs).foldl (fun t l => t.chargeLine vf l) s

/-- The lines of which a participant holds private state at their homes. -/
def State.privateLines (s : State) (t : Nat) : List Nat :=
  (s.hub.dir.filter (fun e => e.2.words.any (fun w => w.2 == t) || (mapGet e.2.masks t).isSome || e.2.reds.contains t)).map
    (fun e => e.1)

/-- The lines for which a participant holds private state at their homes, under a loaded culture those in a MERGE state
that it holds (R263). -/
def State.relLines (s : State) (t : Nat) : List Nat :=
  (s.privateLines t ++ (s.hub.dir.filter (fun e =>
    s.rangeSlot (64 * e.1) ≥ 7 && s.mergeState (s.rangeSlot (64 * e.1)) e.2.state && e.2.holders.contains t)).map (fun e => e.1)).dedup
/-- A release by a context of core n raises REL at the homes of the lines for which its tile holds private state (R263). -/
def State.raiseRel (s : State) (n : Nat) : State :=
  (s.relLines (tileOf n)).foldl (fun u l => u.homeServe l 11 (some (tileOf n))) s

/-- The acquire actions of R232 for a context of core n: the acquire event of every line of which a copy or private state
is held at its L1 and, for scope tile or wider, its slice, under WOWN, RED or a loaded culture. -/
def State.acquire (s : State) (n scope : Nat) : State :=
  let t := tileOf n
  let l1 := if (s.quad (quadOf n)).fused then quadCores (quadOf n) else [n]
  let lines := (l1.flatMap (fun m => (s.core m).l1.map (fun x => x.line)) ++
    (if scope ≥ 2 then (s.tile t).l2.map (fun x => x.line) ++ s.privateLines t else [])).dedup
  lines.foldl (fun u l =>
    let slot := u.rangeSlot (64 * l)
    if slot ≥ 5 then u.homeServe l 10 (some t) else u) s

/-- Scope codes (R225): whether two cores lie in one block of the scope. -/
def sameScope (scope a b : Nat) : Bool :=
  match scope with
  | 0 => a == b
  | 1 => quadOf a == quadOf b
  | 2 => tileOf a == tileOf b
  | 3 => dieOf a == dieOf b
  | _ => true
/-- The smallest scope that holds both cores, at least `least` (R86). -/
def scopeOf (least a b : Nat) : Nat :=
  if least ≤ 1 && quadOf a == quadOf b then 1
  else if least ≤ 2 && tileOf a == tileOf b then 2
  else if dieOf a == dieOf b then 3 else 4

/-- An acquire that reads some bytes of a line from memory meets the line's release tag (R255): the tag goes, and a scope
miss is on its way. A handler's core and quad scopes are those of its tile (R226). -/
def State.meetTag (s : State) (n : Nat) (priv : Bool) (line : Nat) (bytes : List Nat) : State :=
  match mapGet s.hub.tags line with
  | some t =>
    if t.bytes.any (fun b => bytes.contains b) && !(sameScope t.scope t.core n && (!priv || t.scope ≥ 2)) then
      s.modHub (fun h =>
        { h with tags := mapErase h.tags line,
                 misses := h.misses ++ [⟨t.core, t.ctx, t.hoop, t.vf, BitVec.ofNat 64 t.va, t.gone⟩] })
    else s
  | none => s

/-! What every write of memory does besides. -/

/-- The operand reads a frame of memory, data or scales (R167, R168). -/
def Operand.meets (o : Operand) (pa : Nat) : Bool :=
  o.pages.any (fun p => p.2 / 4096 == pa / 4096) || o.scales.any (fun p => p.2 / 4096 == pa / 4096)
def MxOp.meets (o : MxOp) (pa : Nat) : Bool :=
  (match o.a with | some x => x.meets pa | none => false) || (match o.b with | some x => x.meets pa | none => false)

/-- An accepted operation keeps the bytes of its operands that a write is about to change, as it may have read them
before (R170). -/
def MxOp.keep (o : MxOp) (bytes : List (Nat × Byte)) : MxOp :=
  { o with old := bytes.foldl (fun m b => if o.meets b.1 && (mapGet m b.1).isNone then mapSet m b.1 b.2 else m) o.old }

/-- Before a write of some runs: presence bits in these bytes are an NPUT's no more (R87). -/
def State.beforeWrite (s : State) (runs : List (Nat × Nat)) : State :=
  if s.quads.all (fun q => q.2.given.isEmpty) then s
  else
    let inside (pa : Nat) : Bool := runs.any (fun r => r.1 ≤ pa && pa < r.1 + r.2)
    { s with quads := s.quads.map (fun q => (q.1, { q.2 with given := q.2.given.filter (fun g => !inside (g.1 / 8)) })) }

/-! Counter adds (R281). -/

/-- A counter add performed at the word's home or bank: false when the culture refuses it (R268, R281). A reserved
word of a workspace ignores it (R80), PRIV and PK of FLAGS stay (R91); of HBM a stack reads the line and writes it (R303).
`part` is the participant it comes from. -/
def State.counterAdd (s : State) (part vf pa va amount : Nat) : State × Bool :=
  let s0 := (s.serveRuns [(pa, 8)] 3 (some part)).beforeWrite [(pa, 8)]
  if s.refuses pa 3 then (s0, false)
  else if !s.takes pa 3 then (s0, true)
  else
    let s0 := (s0.chargeHbm vf [(pa, 8)]).chargeHbm vf [(pa, 8)]
    let kept := !s.isReserved pa
    let old := if kept then s.peek pa 8 else 0
    let sum : W64 := BitVec.ofNat 64 (if kept then counterSum old amount else 0)
    let mode : W64 := if s.isModeByte (pa + 2) then 0xA00000 else 0
    let new := ((sum &&& ~~~mode) ||| (BitVec.ofNat 64 old &&& mode)).toNat
    let s1 := (if kept then s0.poke pa 8 new else s0).written [(pa, 8)]
    let s2 := s1.noteAdd vf pa va old new
    (if isLocal pa && pa % 16 = 8 then s2.barrierTest (pa - 8) else s2, true)

end Sys2Proof.Machine
end

