-- ==== Sys2Proof/Machine/Storage.lean ====
section
/-!
DEFINITION. Memory as the agents of the part see it: the configuration page (R301, R302), the reserved bytes of
workspaces (R80), a context's own stores (R228), and how accepted stores, posted stores and arrival loads are performed
(R211, R212, R214, R218, R230), in the orders that R227 and R228 keep.
-/

namespace Sys2Proof.Machine

/-! The configuration page. -/

def cfgQuad (pa : Nat) : Nat := (pa - cfgBase) / 0x1000
def cfgOff (pa : Nat) : Nat := (pa - cfgBase) % 0x1000

/-- First offset and size of the counter that holds an offset (R301). -/
def cfgCounter (off : Nat) : Option (Nat × Nat) :=
  if 0x100 ≤ off && off < 0x180 then some (off / 4 * 4, 4)
  else if 0x180 ≤ off && off < 0x230 then some (off / 8 * 8, 8)
  else if 0x400 ≤ off && off < 0xC00 then some (off / 4 * 4, 4)
  else none

/-- A counter of quad q's page. -/
def State.count (s : State) (q off : Nat) : Nat := ((mapGet (s.quad q).counts off).getD 0).toNat

/-- A byte of the configuration page. -/
def State.cfgByte (s : State) (pa : Nat) : Byte :=
  let q := cfgQuad pa
  let off := cfgOff pa
  if off < 0x80 then BitVec.ofNat 8 (((s.quad q).attr (off / 8)).toNat / 256 ^ (off % 8))
  else match cfgCounter off with
    | some (b, _) => BitVec.ofNat 8 (s.count q b / 256 ^ (off - b))
    | none => 0

/-- The matrix and transfer unit counters count cycles of engines: before each read they have advanced by an amount
that the manual does not fix, a free value (log 25). The transfer unit's are those of every quad of the tile. -/
def State.engineCounters (s : State) (pa : Nat) : State :=
  let off := cfgOff pa / 8 * 8
  if isCfg pa && 0x200 ≤ off && off < 0x230 then
    let d := s.draw
    let n := (Config.freeValue d.1).toNat % 2 ^ 32
    if off < 0x218 then d.2.bump (cfgQuad pa) off n 8
    else (tileQuads (tileOfQuad (cfgQuad pa))).foldl (fun t q => t.bump q off n 8) d.2
  else s

/-- Sets an attribute entry or a counter (R193, R302). -/
def State.cfgWrite (s : State) (pa v : Nat) : State :=
  let q := cfgQuad pa
  let off := cfgOff pa
  let setC (t : State) (r : Nat) : State :=
    t.modQuad r (fun x => { x with counts := mapSet x.counts off (BitVec.ofNat 64 v) })
  if off < 0x80 then s.modQuad q (fun x => { x with attrs := mapSet x.attrs (off / 8) (BitVec.ofNat 64 v) })
  else if 0x218 ≤ off && off < 0x230 then (tileQuads (tileOfQuad q)).foldl setC s
  else setC s q

/-- The check of a store to the page: only a privileged store of an entry's or counter's exact size, aligned, with no
reserved bit, changes it (R193, R302). -/
def cfgStoreFault (priv : Bool) (pa size v : Nat) : Option (BitVec 6) :=
  let off := cfgOff pa
  if !priv then some 0x03
  else if off < 0x80 then
    (if size = 8 && off % 8 = 0 && attrWordOk (BitVec.ofNat 64 v) then none else some 0x02)
  else match cfgCounter off with
    | some (b, z) => if off = b && size = z then none else some 0x02
    | none => some 0x02

/-! The capability list (R378, R379). -/

/-- The 8-byte words of the list: word 0 with ID and LEN, then the value; ID 0 ends it. -/
def capWords : List Nat :=
  let word0 (id len : Nat) : Nat := id * 2 ^ 48 + len * 2 ^ 32
  [word0 1 16, 1, word0 2 16, Config.B, word0 3 16, 1000000000, word0 0x10 16, imagesVa,
   word0 0x20 32, chainVa, Config.chainLength.val, 0, word0 0x30 16, measureVa, 0, 0]

/-- A byte of the read-only pages from CAPBASE on: the list, the images of the stock cultures (R267), the measurement of
the running firmware (R382), the certificate chain (R380; log 55). -/
def State.romByte (s : State) (off : Nat) : Byte :=
  if off < 0x1000 then BitVec.ofNat 8 ((capWords[off / 8]?).getD 0 / 256 ^ (off % 8))
  else if off < 0x1000 + 7 * 1088 then stockByte ((off - 0x1000) / 1088) ((off - 0x1000) % 1088)
  else if 0x3000 ≤ off && off < 0x3030 then
    BitVec.ofNat 8 ((Config.measurement s.hub.firmware).toNat / 256 ^ (off - 0x3000))
  else if 0x4000 ≤ off && off < 0x4000 + Config.chainLength.val then Config.chainByte (off - 0x4000)
  else 0

/-! Reads. -/

/-- A byte as any agent reads it. -/
def State.look (s : State) (pa : Nat) : Byte :=
  if isCfg pa then s.cfgByte pa else if isRom pa then s.romByte (pa - romBase) else if s.isReserved pa then 0 else s.byte pa

/-- n bytes as any agent reads them. -/
def State.view (s : State) (pa n : Nat) : Nat := leNat ((fromTo pa n).map s.look)

/-- The byte of a run that a store gives to an address. -/
def Seg.at (g : Seg) (pa : Nat) : Option Byte :=
  if g.pa ≤ pa && pa < g.pa + g.bytes.length then g.bytes[pa - g.pa]? else none
def segsAt (l : List Seg) (pa : Nat) : Option Byte := l.reverse.findSome? (fun g => g.at pa)

/-- The PENDING posted stores of a context, in program order. -/
def State.pendingPosts (s : State) (n k : Nat) : List (Nat × JEntry) :=
  ((s.core n).journal.filter (fun e => e.2.state = .pending && e.2.owner = k)).mergeSort (fun a b => a.2.order ≤ b.2.order)

/-- The latest of a context's own stores to a byte that is not yet performed (R228). -/
def State.ownStore (s : State) (n k pa : Nat) : Option Byte :=
  match (s.ctx n k).stores.reverse.findSome? (fun p => segsAt p.segs pa) with
  | some b => some b
  | none => (s.pendingPosts n k).reverse.findSome? (fun e => segsAt e.2.segs pa)

/-- A byte as context k of core n reads it. -/
def State.lookFor (s : State) (n k pa : Nat) : Byte := (s.ownStore n k pa).getD (s.look pa)

/-- n bytes at consecutive addresses, as a context reads them. -/
def State.loadFor (s : State) (n k pa len : Nat) : Nat := leNat ((fromTo pa len).map (fun a => s.lookFor n k a))
/-- The bytes of several runs, the first run least significant. -/
def State.loadRuns (s : State) (n k : Nat) (runs : List (Nat × Nat)) : Nat :=
  leNat (runs.flatMap (fun r => (fromTo r.1 r.2).map (fun a => s.lookFor n k a)))

/-- The first poisoned byte of a run that is not forwarded from the context's own stores (R204). A byte that a load takes
from the context's own store meets no poison, also where that store covers its granule in part: R204 and R228 do not say
(DESIGN CHOICE, log 77). -/
def State.poisonIn (s : State) (n k : Nat) (r : Nat × Nat) : Option Nat :=
  if s.poison.isEmpty then none
  else (fromTo r.1 r.2).find? (fun a => s.poisoned a && (s.ownStore n k a).isNone)

/-- The lowest faulting address of a list of parts that holds poison. -/
def State.partsPoison (s : State) (n k : Nat) (ps : List Part) : Option Nat :=
  ps.findSome? (fun p => (s.poisonIn n k (p.pa, p.len)).map (fun a => p.va + (a - p.pa)))

/-! Writes. -/

/-- A run cut at the end of its line. -/
def Seg.byLine (g : Seg) : List Seg :=
  let first := 64 - g.pa % 64
  if g.bytes.length ≤ first then [g]
  else [{ g with bytes := g.bytes.take first }, ⟨g.pa + first, g.va + first, g.bytes.drop first⟩]

/-- The bytes of a run as they reach memory: none of a workspace's reserved area (R80), and PRIV and PK as they are. -/
def State.clip (s : State) (g : Seg) : List (Nat × List Byte) :=
  if isLocal g.pa && (fromTo g.pa g.bytes.length).any (fun a => s.isReserved a || s.isModeByte a) then
    ((fromTo g.pa g.bytes.length).zip g.bytes).filterMap (fun x =>
      if s.isReserved x.1 then none
      else if s.isModeByte x.1 then some (x.1, [(x.2 &&& 0x5F) ||| (s.byte x.1 &&& 0xA0)])
      else some (x.1, [x.2]))
  else [(g.pa, g.bytes)]

/-- Runs of bytes. -/
def segRuns (l : List Seg) : List (Nat × Nat) := l.map (fun g => (g.pa, g.bytes.length))

/-- Runs written, with what a write sets off: seals, tags, wakes (R255, R267, R278). -/
def State.writeSegs (s : State) (vf : Nat) (segs : List Seg) : State :=
  let mem := segs.filter (fun g => !isCfg g.pa)
  let s := s.beforeWrite (segRuns mem)
  let s0 := (segs.filter (fun g => isCfg g.pa)).foldl (fun t g => t.cfgWrite g.pa (leNat g.bytes)) s
  let s1 := s0.store (mem.flatMap (fun g => s.clip g))
  (s1.written (mem.map (fun g => (g.pa, g.bytes.length)))).noteWrite vf mem

/-- Runs performed as one write of bytes without a fill (event WRL), which a participant asks for: those that their home
takes (R264). -/
def State.performSegs (s : State) (part vf : Nat) (segs : List Seg) : State :=
  let good := segs.filter (fun g => s.takes g.pa 2)
  ((s.serveRuns (segRuns segs) 2 (some part)).chargeHbm vf (segRuns good)).writeSegs vf good

/-- The release tag that a RELST narrower than sys leaves (R255). -/
def State.leaveTag (s : State) (n k scope : Nat) (segs : List Seg) : State :=
  match segs with
  | g :: _ =>
    if scope < 5 && (isHbm g.pa || isHost g.pa) then
      s.modHub (fun h => { h with tags := mapSet h.tags (lineOf g.pa) ⟨scope, n, k, (s.core n).hoop, (s.quad (quadOf n)).vf, g.va,
        fromTo g.pa g.bytes.length, none⟩ })
    else s
  | [] => s

/-- An access of a context of some kind to some bytes has been performed: a later one of its own reads no older value of
them, and after one of an SO page no older value of anything (R130, R227, R228). -/
def State.settled (s : State) (n k ord : Nat) (runs : List (Nat × Nat)) : State :=
  let x := s.ctx n k
  if x.past.isEmpty && x.ldas.all (fun l => l.old.isEmpty) then s
  else
    let keep (m : Map Byte) : Map Byte := m.filter (fun b => !runs.any (fun r => r.1 ≤ b.1 && b.1 < r.1 + r.2))
    s.modCtx n k (fun y =>
      { y with past := if ord = 0 then [] else keep y.past,
               ldas := y.ldas.map (fun l => { l with old := if ord = 0 && l.ord = 0 then [] else keep l.old }) })

/-- Performs one accepted store (R230), a write before which the line is asked for (event RDX); a streaming store is a
write of bytes without a fill (event WRL, R263). Runs that the culture refuses have no effect and cause 0x19 follows
(R268). -/
def State.performStore (s : State) (n k : Nat) (p : PendStore) : State :=
  let segs := p.segs.flatMap Seg.byLine
  let ev := if p.cache = 3 then 2 else 1
  let bad := segs.filter (fun g => s.refuses g.pa ev)
  let good := segs.filter (fun g => !s.refuses g.pa ev && s.takes g.pa ev)
  let s0 := if ev = 2 then (s.serveRuns (segRuns segs) 2 (some (tileOf n))).chargeHbm p.vf (segRuns good)
    else s.ownRuns n p.cache p.vf p.cmps (segRuns segs)
  let s1 := ((s0.writeSegs p.vf good).settleLines (tileOf n) (segRuns good)).settled n k p.ord (segRuns segs)
  let s2 := match p.kind with | .release scope => s1.leaveTag n k scope good | .plain => s1
  match (bad.map (fun g => g.va)).min? with
  | some a => s2.pendCause n k 0x19 (BitVec.ofNat 64 a) true
  | none => s2

/-- Performs the first `c` stores a context has accepted, oldest first. -/
def State.performFirst (s : State) (n k c : Nat) : State :=
  let l := (s.ctx n k).stores
  if c = 0 then s
  else (l.take c).foldl (fun t p => t.performStore n k p) (s.modCtx n k (fun x => { x with stores := l.drop c }))

/-- Performs the stores up to the last one that `hit` picks. -/
def State.performThrough (s : State) (n k : Nat) (hit : PendStore → Bool) : State :=
  let l := (s.ctx n k).stores
  let tail := l.reverse.takeWhile (fun p => !hit p)
  if l.length = tail.length then s else s.performFirst n k (l.length - tail.length)

/-! Posted stores (R218, R327). -/

/-- A quad whose retired banks outnumber its spares has failed (R191, R205). -/
def Quad.failed (q : Quad) : Bool := q.retired.length > 2

/-- The cause with which the target refuses a posted store, if it does (R81, R205, R268). A handler's posted store to
protected bytes is a privileged agent's write, which the target performs (DESIGN CHOICE, log 69). -/
def State.postRefusal (s : State) (e : JEntry) : Option (BitVec 6) :=
  if !e.priv && e.segs.any (fun g => (fromTo g.pa g.bytes.length).any (fun a => s.isProtected a)) then some 0x03
  else if e.segs.any (fun g => isLocal g.pa && (s.quad (localQuad g.pa)).failed) then some 0x3A
  else if e.segs.any (fun g => s.refuses g.pa 2) then some 0x19
  else none

/-- The refusal of a posted store: the entry is REFUSED and cause 0x21 follows; when the owner has exited a record is
written and the entry is FREE (R327). -/
def State.refusePost (s : State) (n j : Nat) (c : BitVec 6) : State :=
  let e := (s.core n).entry j
  let r := { e with state := .refused, cause := c }
  let s := if c = 0x19 then s.serveRuns (segRuns e.segs) 2 (some (tileOf n)) else s
  if (s.ctx n e.owner).st = .free then
    (s.modEntry n j (fun _ => JEntry.free)).faultRecord e.vf 0x21 e.va.toNat 0 (s.tagOf n) (srcCtx n e.owner) r.word
      e.va.toNat
  else
    let s1 := s.modEntry n j (fun _ => r)
    if (s.ctx n e.owner).pend.length ≥ 8 then
      s1.lostCause n e.owner r e.vf (s.tagOf n) 0x21 (BitVec.ofNat 64 j)
    else s1.pendCause n e.owner 0x21 (BitVec.ofNat 64 j) true

/-- A posted store reaches its target: performed and acknowledged, or refused. -/
def State.settlePost (s : State) (n j : Nat) : State :=
  let e := (s.core n).entry j
  match s.postRefusal e with
  | some c => s.refusePost n j c
  | none =>
    ((s.modEntry n j (fun _ => JEntry.free)).performSegs (tileOf n) e.vf e.segs).settled n e.owner e.ord (segRuns e.segs)

/-- The PENDING entries of a context that `hit` picks, in program order. -/
def State.postsOf (s : State) (n k : Nat) (hit : JEntry → Bool) : List Nat :=
  ((s.pendingPosts n k).filter (fun e => hit e.2)).map (fun e => e.1)
def State.settlePosts (s : State) (n k : Nat) (hit : JEntry → Bool) : State :=
  (s.postsOf n k hit).foldl (fun t j => t.settlePost n j) s

/-! Arrival loads (R212, R214). -/

/-- V[n][i] ← f i in the lanes of a mask, of the workspace at `ws`. -/
def State.setVAt (s : State) (ws n : Nat) (lanes : List (Nat × W32)) : State :=
  s.store (lanes.map (fun x => (ws + 0x200 + 0x80 * n + 4 * x.1, toLE 4 x.2.toNat)))

/-- The FP32 lane that an element gives, from bytes that `look` and a scale byte that `scale` reads (R128). -/
def laneFrom (look scale : Nat → Byte) (rm : Nat) (e : Elem) : W32 :=
  let sc := match e.scale with | some (a, _) => (scale a).toNat | none => 127
  loadLane e.attr.fmt e.attr.sh sc rm (leNat ((fromTo e.pa (fmtBytes e.attr.fmt)).map look))
/-- A byte, or the one it has overwritten when `pick` holds. -/
def mixByte (old : Map Byte) (pick : Bool) (look : Nat → Byte) (pa : Nat) : Byte :=
  if pick then (mapGet old pa).getD (look pa) else look pa
/-- The FP32 lane that an element gives when others have overwritten bytes during the access (R130): under a scale, the
data and the scale byte each as they were or as they are, by free bits. -/
def State.laneMix (s : State) (look : Nat → Byte) (old : Map Byte) (rm : Nat) (e : Elem) : W32 :=
  if old.isEmpty || e.scale.isNone then laneFrom look look rm e
  else laneFrom (mixByte old (s.bitAt (2 * e.pa)) look) (mixByte old (s.bitAt (2 * e.lane + 1)) look) rm e
/-- The FP32 lane an element of memory gives a context in its turn (R128, R130). -/
def State.laneOf (s : State) (n k rm : Nat) (e : Elem) : W32 := s.laneMix (s.lookFor n k) (s.ctx n k).past rm e
/-- The draw that decides such lanes is used. -/
def State.drawn (s : State) (old : Map Byte) : State := if old.isEmpty then s else { s with draws := s.draws + 1 }

/-- A byte as an arrival load reads it: one of its own workspace as it was at issue (R82). -/
def State.lookLda (s : State) (n k : Nat) (l : Lda) (pa : Nat) : Byte :=
  match mapGet l.own pa with
  | some b => b.getD 0
  | none => s.lookFor n k pa

/-- The first poisoned byte of a run that an arrival load reads. -/
def State.poisonLda (s : State) (n k : Nat) (l : Lda) (r : Nat × Nat) : Option Nat :=
  (fromTo r.1 r.2).find? (fun a =>
    match mapGet l.own a with
    | some b => b.isNone
    | none => s.poisoned a && (s.ownStore n k a).isNone)

/-- The lowest poisoned byte, as a virtual address, that an arrival load reads (R212, R214). -/
def State.ldaPoison (s : State) (n k : Nat) (l : Lda) : Option Nat :=
  if s.poison.isEmpty && l.own.all (fun b => b.2.isSome) then none
  else if l.vec then
    (l.elems.flatMap (fun e =>
      ((s.poisonLda n k l (e.pa, fmtBytes e.attr.fmt)).map (fun a => e.va + (a - e.pa))).toList ++
      (match e.scale with | some (a, va) => ((s.poisonLda n k l (a, 1)).map (fun _ => va)).toList | none => []))).min?
  else (l.bytes.findSome? (fun r => s.poisonLda n k l r)).map (fun _ => l.va)

/-- The lowest poisoned byte among elements and their scale bytes (R214). -/
def State.elemsPoison (s : State) (n k : Nat) (l : List Elem) : Option Nat :=
  if s.poison.isEmpty then none
  else (l.flatMap (fun e =>
    ((s.poisonIn n k (e.pa, fmtBytes e.attr.fmt)).map (fun a => e.va + (a - e.pa))).toList ++
    (match e.scale with
     | some (a, va) => ((s.poisonIn n k (a, 1)).map (fun _ => va)).toList
     | none => []))).min?

/-- The runs of an arrival load as its caches see them, with the pages' leave to compress (R199). -/
def Lda.cached (l : Lda) : List (Nat × Nat × Bool) :=
  if l.vec then
    l.elems.map (fun e => (e.pa, fmtBytes e.attr.fmt, e.attr.cmp)) ++
      l.elems.filterMap (fun e => e.scale.map (fun x => (x.1, 1, false)))
  else l.bytes.map (fun r => (r.1, r.2, false))

/-- The bytes an arrival load reads. -/
def Lda.reads (l : Lda) : List (Nat × Nat) :=
  if l.vec then l.elems.map (fun e => (e.pa, fmtBytes e.attr.fmt)) ++ l.elems.filterMap (fun e => e.scale.map (fun x => (x.1, 1)))
  else l.bytes

/-- Lands a load that has left the list of those in flight, as one update: the register, unless poison was met, and
the arrival counter (R212, R214). -/
def State.land (s : State) (n k : Nat) (l : Lda) : State :=
  let a := l.ws + 0x1220 + 2 * l.ctr
  let counted (t : State) : State := t.poke a 2 ((t.peek a 2 + 0xFFFF) % 0x10000)
  let t := ((s.readRuns n (s.quad (quadOf n)).vf l.cache l.cached).drawn l.old).settled n k l.ord l.reads
  match s.ldaPoison n k l with
  | some p => (counted t).pendCause n k 0x3B (BitVec.ofNat 64 p) true
  | none =>
    if l.vec then counted (t.setVAt l.ws l.dst (l.elems.map (fun e => (e.lane, s.laneMix (s.lookLda n k l) l.old l.rm e))))
    else
      let v := leNat (l.bytes.flatMap (fun r => (fromTo r.1 r.2).map (fun x => s.lookLda n k l x)))
      let w : W64 := if l.dbl then BitVec.ofNat 64 v else sext64 (BitVec.ofNat 64 v) 32
      counted (if l.dst = 0 then t else t.poke (l.ws + 8 * l.dst) 8 w.toNat)

/-- Lands the loads in flight that `hit` picks, oldest first. -/
def State.landThose (s : State) (n k : Nat) (hit : Lda → Bool) : State :=
  let l := (s.ctx n k).ldas
  if l.any hit then
    let s1 := s.modCtx n k (fun x => { x with ldas := l.filter (fun y => !hit y) })
    (l.filter hit).foldl (fun t x => t.land n k x) s1
  else s

/-! Program order (R227, R228). -/

/-- Two lists of runs share a byte. -/
def overlap (x y : List (Nat × Nat)) : Bool :=
  x.any (fun a => y.any (fun b => a.1 < b.1 + b.2 && b.1 < a.1 + a.2))
/-- A FLUSH at the line's home (R221): every cached copy in the package goes. -/
def State.flushLine (s : State) (line : Nat) : State :=
  let copies := ((s.tiles.filter (fun t => t.2.hasLine line)).map (fun t => t.1) ++ (s.dirOf line).sharers).dedup
  (copies.foldl (fun t p => t.dropLine p line) s).homeServe line 12 none

/-- The home defers a FLUSH, or answers it with a retry (R40, R398): a tile other than the issuer's with a context that
reserves the line has a copy of it. -/
def State.flushBusy (s : State) (line : Nat) (req : Option Nat) : Bool :=
  s.retriesAt line 12 ||
    (s.reservers line req).any (fun c => (s.tile (tileOf c)).hasLine line || (s.dirOf line).owner == some (tileOf c))

/-- The flushes of a context that `hit` picks by line and kind are performed, after the stores to their lines and, of an
SO page, the SO stores that came before them (R227, R228). -/
def State.flushThose (s : State) (n k : Nat) (hit : Nat → Nat → Bool) : State :=
  let mine (o : CtxOp) : Option (Nat × Nat) := match o with | .flush l _ d => if hit l d then some (l, d) else none | _ => none
  let l := (s.ctx n k).ops.filterMap mine
  if l.isEmpty then s
  else
    let s1 := s.performThrough n k (fun p => l.any (fun f => (linesOf (segRuns p.segs)).contains f.1 || (f.2 = 0 && p.ord = 0)))
    l.foldl (fun t f => (t.flushLine f.1).settled n k f.2 [])
      (s1.modCtx n k (fun x => { x with ops := x.ops.filter (fun o => (mine o).isNone) }))

/-- Before an access of these bytes is accepted: the context's flushes of their lines, and of an SO page every SO flush,
are performed (R227, R228; log 6). -/
def State.beforeAccess (s : State) (n k : Nat) (runs : List (Nat × Nat)) (so : Bool) : State :=
  s.flushThose n k (fun l d => (linesOf runs).contains l || (so && d = 0))

/-- Before a read of these bytes by a context: the arrival loads of the same bytes, and on an SO page every SO arrival
load, have landed too (R227, R228; log 6). -/
def State.beforeRead (s : State) (n k : Nat) (runs : List (Nat × Nat)) (so : Bool) : State :=
  (s.landThose n k (fun l => overlap l.reads runs || (so && l.ord = 0))).beforeAccess n k runs so

/-- Before a store of these bytes: as before a read, and posted stores to the same bytes, on an SO page every SO
posted store, have reached their target. -/
def State.beforeStore (s : State) (n k : Nat) (runs : List (Nat × Nat)) (so : Bool) : State :=
  (s.beforeRead n k runs so).settlePosts n k (fun e => overlap (segRuns e.segs) runs || (so && e.ord = 0))

/-- Before an access that is performed at once at the bytes' home: stores to the same bytes, on an SO page every SO
store, are performed too. -/
def State.beforeHome (s : State) (n k : Nat) (runs : List (Nat × Nat)) (so : Bool) : State :=
  (s.beforeStore n k runs so).performThrough n k (fun p => overlap (segRuns p.segs) runs || (so && p.ord = 0))

/-- Stores to HBM, host memory and the configuration page wait in the store buffer; those to local memory are
performed when accepted (log 7). -/
def isBuffered (pa : Nat) : Bool := isHbm pa || isHost pa || isCfg pa

/-- The kind that counts for a part of a store: one to the attribute table is SO (R194). -/
def storeOrd (ord pa : Nat) : Nat := if isCfg pa && cfgOff pa < 0x80 then 0 else ord

/-- The lines of a part of a store that its page allows to compress (R193, R199). -/
def cmpLines (a : Attr) (g : Seg) : List Nat := if a.cmp then linesOf [(g.pa, g.bytes.length)] else []

/-- Stores that wait, one for each run of parts of one kind (R229), in lane order. -/
def pendParts (kind : StoreKind) (cache vf : Nat) (scatter : Bool) : List (Attr × Seg) → List PendStore
  | [] => []
  | (a, g) :: rest =>
    let ord := storeOrd a.ord g.pa
    match pendParts kind cache vf scatter rest with
    | p :: ps =>
      if p.ord = ord then { p with cmps := cmpLines a g ++ p.cmps, segs := g :: p.segs } :: ps
      else { kind := kind, ord := ord, cache := cache, more := scatter, cmps := cmpLines a g, vf := vf, segs := [g] } :: p :: ps
    | [] => [{ kind := kind, ord := ord, cache := cache, more := false, cmps := cmpLines a g, vf := vf, segs := [g] }]

/-- Accepts a store of the issuing context: parts with their pages' attributes, in lane order. One that reaches local
memory is performed at once, whole and in that order; another waits in the store buffer (R216, R229; log 7). -/
def State.acceptStore (s : State) (kind : StoreKind) (cache : Nat) (scatter : Bool) (parts : List (Attr × Seg)) : State :=
  let n := s.cur.core
  let k := s.cur.ctx
  let segs := parts.map (fun x => x.2)
  let so := parts.any (fun x => storeOrd x.1.ord x.2.pa = 0)
  let s1 := s.beforeStore n k (segRuns segs) so
  if segs.all (fun g => isBuffered g.pa) then
    s1.modCx (fun x => { x with stores := x.stores ++ pendParts kind cache s.myVf scatter parts })
  else
    let s2 := s1.performThrough n k (fun p => overlap (segRuns p.segs) (segRuns segs) || (so && p.ord = 0))
    let cmps := parts.flatMap (fun x => cmpLines x.1 x.2)
    s2.performStore n k
      { kind := kind, ord := if so then 0 else 1, cache := cache, more := false, cmps := cmps, vf := s.myVf, segs := segs }

/-! Releases that the device orders itself (NPUT, SEND, counter adds and the others; R231, R234; log 6). -/

/-- Every earlier access of a context is performed: loads in flight land, stores, posted stores and flushes are
performed. -/
def State.performEach (s : State) (n k : Nat) : State :=
  let s1 := (s.landThose n k (fun _ => true)).performFirst n k (s.ctx n k).stores.length
  (s1.settlePosts n k (fun _ => true)).flushThose n k (fun _ _ => true)
/-- A release that orders every earlier access of a context itself: they are performed, and the release event raised for
the lines of which its tile holds private state (R263). -/
def State.performAll (s : State) (n k : Nat) : State := (s.performEach n k).raiseRel n

/-- An earlier access of the issuing context is not performed (code 0x19): of SO and RC pages for a release, of every
kind for FENCE, which also counts table operations (R237, R239, R272). -/
def State.unperformed (s : State) (fence : Bool) : Bool :=
  let x := s.cx
  let kind (ord : Nat) : Bool := fence || ord ≠ 2
  x.stores.any (fun p => kind p.ord) || x.ldas.any (fun l => kind l.ord) ||
    (s.core s.cur.core).journal.any (fun e => e.2.state = .pending && e.2.owner = s.cur.ctx && kind e.2.ord) ||
    x.ops.any (fun o => match o with | .flush _ _ d => kind d | _ => fence)

end Sys2Proof.Machine
end

