-- ==== Sys2Proof/Machine/Control.lean ====
section
/-!
DEFINITION. Control flow and parking (R106 to R116), MOVC and MOVCW (R89, R90), traps and returns (R336 to R338).
-/

namespace Sys2Proof.Machine

/-- A slot of core n is landed (R107). -/
def State.landed (s : State) (n k : Nat) : Bool := ((s.core n).slot k).state == .landed

/-- Runs a branch: taken under the body, else the next word. -/
def execBr (g : BitVec 4) (o : BitVec 22) (s : State) : Out :=
  run (.br g o) g .scalar s (fun t => .jump t (pcAdd t.wordPc o.toInt))
def execJmp (o : BitVec 22) (s : State) : Out :=
  run (.jmp o) 7 .scalar s (fun t => .jump t (pcAdd t.wordPc o.toInt))
def execCall (g : BitVec 4) (o : BitVec 22) (s : State) : Out :=
  run (.call g o) g .scalar s (fun t => .jump (t.setS 63 (pcReg t.nextPc)) (pcAdd t.wordPc o.toInt))
def execLoop (g : BitVec 4) (d : BitVec 6) (i : BitVec 10) (s : State) : Out :=
  run (.loop g d i) g .scalar s (fun t =>
    let v := t.getS d - 1
    if v ≠ 0 then .jump (t.setS d v) (pcAdd t.wordPc i.toInt) else .done (t.setS d v))

/-- The check of a register PC target (R106, R111, R372): the cause, if it fails. `own` says that the executing
instruction's own slot needs no test. -/
def State.jumpFault (s : State) (t : W64) : Option (BitVec 6) :=
  let slot := fld t 13 10
  if fld t 63 14 ≠ 0 then some 0x05
  else if s.priv then (if slot = 0 then none else some 0x05)
  else if slot = pcSlot s.wordPc || s.landed s.cur.core slot then none
  else some 0x06

/-- A jump to the PC value in S[a] (R111). -/
def registerJump (i : Instr) (g : BitVec 4) (a : BitVec 6) (link : Bool) (s : State) : Out :=
  run i g .scalar s (fun t =>
    let v := t.getS a
    match t.jumpFault v with
    | some c => .trap t c v
    | none => .jump (if link then t.setS 63 (pcReg t.nextPc) else t) (v.extractLsb' 0 14))

def execJmpr (g : BitVec 4) (a : BitVec 6) (s : State) : Out := registerJump (.jmpr g a) g a false s
def execCallr (g : BitVec 4) (a : BitVec 6) (s : State) : Out := registerJump (.callr g a) g a true s
def execRet (g : BitVec 4) (a : BitVec 6) (s : State) : Out := registerJump (.ret g a) g a false s

/-- JSEG (R112): with an ONNR, a slot not landed is a not-ready outcome. -/
def execJseg (g : BitVec 4) (a : BitVec 6) (s : State) : Out :=
  run (.jseg g a) g .scalar s (fun t =>
    let v := t.getS a
    match t.jumpFault v with
    | some c => if c = 0x06 && t.onnr.isSome then .wait t 0x0D [] else .trap t c v
    | none => .jump t (v.extractLsb' 0 14))

def execYield (g : BitVec 4) (s : State) : Out :=
  run (.yield g) g .scalar s (fun t => .done (t.modCx (fun x => { x with yielded := true })))

/-! Parking (R43, R114 to R116). -/

/-- The context leaves rotation, or stays READY. -/
def State.parkOn (s : State) (p : Park) : State := s.modCx (fun x => { x with st := .parked, park := p })
/-- An instruction on the service core cannot leave the rotation it is not in: the context stays AWAY (log 23). -/
def State.parkUnless (s : State) (ready : Bool) (p : Park) : State :=
  if ready || s.priv then s.modCx (fun x => { x with park := if s.priv then x.park else .none }) else s.parkOn p

/-- PARK.ge (R114). A read that cannot be completed at issue, by a page in transit or at the device's discretion
(log 5), parks the context and completes later. -/
def execParkGe (g : BitVec 4) (a b : BitVec 6) (s : State) : Out :=
  run (.parkGe g a b) g .scalar s (fun t =>
    let va := t.getS a
    if va.toNat % 8 ≠ 0 then .trap t 0x04 va
    else
      let r := t.xlate t.me accR.config [(va.toNat, 8)]
      match r.2.fault with
      | some (c, f) => .trap r.1 c (BitVec.ofNat 64 f)
      | none =>
        let u := { r.1 with choices := r.1.choices.tail }
        let pa := match r.2.parts with | p :: _ => p.pa | [] => 0
        let n := t.cur.core
        let k := t.cur.ctx
        let late := r.2.tr || (match t.choices with | c :: _ => c.code ≠ 0 | [] => false) ||
          t.askBusy (tileOf n) [(pa, 8)] 0
        if late then .done (u.parkUnless false (.ge va (t.getS b) true))
        else if (t.poisonIn n k (pa, 8)).isSome then .trap r.1 0x3B va
        else
          let v := u.beforeRead n k [(pa, 8)] false
          .done ((v.readRuns n v.myVf 0 [(pa, 8, false)]).parkUnless ((t.getS b).toNat ≤ v.loadFor n k pa 8)
            (.ge va (t.getS b) false)))

/-- PARK.nb on presence bit `bit` (R115). -/
def parkNb (i : Instr) (g : BitVec 4) (bit : Nat) (s : State) : Out :=
  run i g .scalar s (fun t => .done (t.parkUnless (t.presence t.ws bit) (.nb bit)))
def execParkNbS (g : BitVec 4) (n : BitVec 6) (s : State) : Out := parkNb (.parkNbS g n) g n.toNat s
def execParkNbV (g : BitVec 4) (n : BitVec 5) (s : State) : Out := parkNb (.parkNbV g n) g (64 + n.toNat) s

/-- The wait-and-wake entry a context registered for an address (R116). -/
def State.entryOf (s : State) (n k va : Nat) : Option WaitEntry :=
  s.hub.waits.find? (fun e => e.waiter == .ctx n k && e.hoop == (s.core n).hoop && e.asked == va)

/-- PARK.watch (R116). -/
def execParkWatch (g : BitVec 4) (a : BitVec 6) (s : State) : Out :=
  run (.parkWatch g a) g .scalar s (fun t =>
    let va := t.getS a
    match t.entryOf t.cur.core t.cur.ctx va.toNat with
    | none => .done (t.parkUnless true .none)
    | some e =>
      if e.latch then
        .done ((t.modHub (fun h => { h with waits := h.waits.map (fun x => if x = e then { x with latch := false } else x) })).parkUnless
          true .none)
      else .done (t.parkUnless false (.watch va)))

/-! Control registers. -/

def execMovc (g : BitVec 4) (d c : BitVec 6) (s : State) : Out :=
  scalarOp (.movc g d c) g d (fun t => t.control c.toNat) s

/-- Numbers that MOVCW writes (R90). -/
def ctlWritable (c : Nat) : Bool := (10 ≤ c && c ≤ 15) || (17 ≤ c && c ≤ 21)
/-- Numbers that only a privileged context writes (R90). -/
def ctlPrivileged (c : Nat) : Bool := 11 ≤ c && c ≤ 15
/-- A 1 in a reserved bit, or an unassigned field value (R90, R91). -/
def ctlReserved (c : Nat) (v : W64) : Bool :=
  match c with
  | 10 => fld v 63 32 ≠ 0 || v.getLsbD 30 || fld v 20 5 ≠ 0
  | 11 => fld v 63 8 ≠ 0 || v.getLsbD 6
  | 13 => fld v 63 14 ≠ 0
  | 14 => fld v 63 21 ≠ 0 || fld v 9 0 ≠ 0
  | 15 => fld v 63 32 ≠ 0
  | 17 => fld v 63 3 ≠ 0 || fld v 2 0 = 0 || fld v 2 0 > 5
  | 18 | 19 | 20 | 21 => fld v 63 17 ≠ 0
  | _ => false

/-- The write of MOVCW (R90): FX is cleared where 1 is written; PRIV and PK are read-only. -/
def State.writeControl (s : State) (c : Nat) (v : W64) : State :=
  let fx := s.flags &&& ~~~(v &&& 0x1F) &&& 0x1F
  match c with
  | 10 =>
    if s.priv then
      s.setFlags ((s.flags &&& 0x0000000000A00000) ||| (v &&& 0x00000000BF400000) ||| fx)
    else s.setFlags ((s.flags &&& ~~~0x1F) ||| fx)
  | 11 => s.setFlags (setFld (setFld s.flags 31 31 (fld v 7 7)) 29 24 (fld v 5 0))
  | 12 => s.setItem 0x1278 8 v.toNat
  | 13 => s.setItem 0x1270 4 v.toNat
  | 14 => s.setItem 0x1274 4 v.toNat
  | 15 => s.setItem 0x121C 4 v.toNat
  | 17 => s.setItem 0x1238 8 v.toNat
  | 18 => s.setItem 0x1250 8 v.toNat
  | 19 => s.setItem 0x1258 8 v.toNat
  | 20 => s.setItem 0x1260 8 v.toNat
  | 21 => s.setItem 0x1268 8 v.toNat
  | _ => s

def execMovcw (g : BitVec 4) (c b : BitVec 6) (s : State) : Out :=
  run (.movcw g c b) g .scalar s (fun t =>
    let v := t.getS b
    let n := c.toNat
    if !ctlWritable n then .trap t 0x01 (BitVec.zeroExtend 64 (encode (.movcw g c b)))
    else if !t.priv && (ctlPrivileged n || (n = 10 && fld v 63 5 ≠ 0)) then .trap t 0x03 0
    else if ctlReserved n v then .trap t 0x02 (BitVec.zeroExtend 64 (encode (.movcw g c b)))
    else .done (t.writeControl n v))

/-! TRAP, DBGBRK, TRET, WSPSW (R336 to R338). -/

def execTrap (g : BitVec 4) (c : BitVec 6) (s : State) : Out :=
  run (.trap g c) g .scalar s (fun t => .own t 0x09 (c.zeroExtend 64))

/-- DBGBRK (R336): with a debugger attached the context stops at its next boundary, its PC naming the next word. -/
def execDbgbrk (g : BitVec 4) (s : State) : Out :=
  run (.dbgbrk g) g .scalar s (fun t =>
    if t.debugged t.cur.core then
      .done ((t.modCx (fun x => { x with pc := t.nextPc })).stopCtx t.cur.core t.cur.ctx
        (fun x => { x with stopDebug := true }))
    else .own t 0x0A 0)

/-- The workspace test of R337 but for the arrival counters: alignment, range, overlap with another context's. -/
def State.workspaceOk (s : State) (w : Nat) : Bool :=
  w % 0x400 = 0 && w + 0x1400 ≤ 0x200000 &&
    (quadCores s.q).all (fun n => (fromTo 0 16).all (fun k =>
      (n == s.cur.core && k == s.cur.ctx) || (s.ctx n k).st == .free ||
        (let v := (s.ctx n k).wsp.toNat; v + 0x1400 ≤ w || w + 0x1400 ≤ v)))
/-- An arrival counter of the current workspace is nonzero. -/
def State.loadsFlying (s : State) : Bool := s.item 0x1220 8 ≠ 0

/-- Before the workspace at w becomes the context's own: accesses of the context to its bytes that are not performed yet
are performed, with every other, so that its registers are ordered with them (R82). -/
def State.enterWs (s : State) (w : Nat) : State :=
  let n := s.cur.core
  let k := s.cur.ctx
  let own : List (Nat × Nat) := [(quadLocal (quadOf n) + w % Memory.localSize, 0x1400)]
  if (s.ctx n k).ldas.any (fun l => overlap l.reads own) || (s.pendingPosts n k).any (fun e => overlap (segRuns e.2.segs) own)
  then s.performEach n k else s

/-- WSPSW (R337). FLAGS stays with the context: its word is copied to the new workspace (log 24). -/
def execWspsw (g : BitVec 4) (a b : BitVec 6) (s : State) : Out :=
  run (.wspsw g a b) g .scalar s (fun t =>
    let w := t.getS a
    let p := t.getS b
    if t.priv then .trap t 0x03 0
    else if !t.workspaceOk w.toNat || t.loadsFlying then .trap t 0x0E w
    else if fld p 63 14 ≠ 0 then .trap t 0x05 p
    else if !t.landed t.cur.core (fld p 13 10) then .trap t 0x06 p
    else
      let u := t.enterWs w.toNat
      .jump ((u.modCx (fun x => { x with wsp := w.extractLsb' 0 32 })).setFlags u.flags) (p.extractLsb' 0 14))

/-- TRET (R338). -/
def execTret (g : BitVec 4) (s : State) : Out :=
  run (.tret g) g .scalar s (fun t =>
    let p := t.tpc % 2 ^ 14
    if !t.priv then .trap t 0x03 0
    else if !t.landed t.cur.core (p / 1024) then .trap t 0x06 (BitVec.ofNat 64 p)
    else if !t.workspaceOk t.twsp || (t.twsp ≠ t.cx.wsp.toNat && t.loadsFlying) then
      .trap t 0x0E (BitVec.ofNat 64 t.twsp)
    else
      let v := if t.twsp = t.cx.wsp.toNat then t else t.enterWs t.twsp
      let f := setFld (setFld v.flags 23 23 0) 21 21 0
      let u := v.modCx (fun x => { x with st := .ready, wsp := BitVec.ofNat 32 t.twsp })
      .jump ((u.setFlags f).leaveService t.cur.core t.cur.ctx) (BitVec.ofNat 14 p))

end Sys2Proof.Machine
end

