-- ==== Sys2Proof/Machine/MemoryOps.lean ====
section
/-!
DEFINITION. Load, store, atomic and code-fetch instructions (R206 to R224).
-/

namespace Sys2Proof.Machine

/-! Shared steps. -/

/-- Physical lines of some parts (R40). -/
def partLines (ps : List Part) : List Nat := linesOf (ps.map (fun p => (p.pa, p.len)))

/-- The state that an I-class walk outcome leaves (R202): a core TLB miss is filled from the shared TLB, any other walk
goes on. `filled` is the state after the translation. -/
def State.walking (s : State) (w : Who) (c : Nat) (vas : List Nat) (filled : State) : State :=
  if c = 0x43 then filled else s.startWalks w vas

/-- Step 4 of R35: an I-class walk outcome, then faults, then a page in transit with the code `trc`; else the rest. -/
def State.reach (s : State) (i : Instr) (a : Acc) (pieces : List (Nat × Nat)) (trc : Nat)
    (rest : State → List Part → Res) : Res :=
  let r := s.xlate s.me a pieces
  let vas := pieces.map (fun p => p.1)
  let c := s.discretion4 i s.me vas
  if c ≠ 0 then .wait (s.walking s.me c vas r.1) c (if a.r then partLines r.2.parts else [])
  else match r.2.fault with
    | some (cause, va) => .trap r.1 cause (BitVec.ofNat 64 va)
    | none => if r.2.tr then .wait r.1 trc [] else rest r.1 r.2.parts

/-- Step 6 of R35. -/
def State.device (s : State) (i : Instr) (lines : List Nat) (rest : Unit → Res) : Res :=
  let c := s.discretion6 i
  if c ≠ 0 then .wait s c lines else rest ()

/-- Step 6 of R35 for an access at the home of its lines, event `ev`: the device's own choice, then a retry that the home
sends or a line it defers (R40, R398), as far as R41 lets it be reported. -/
def State.deviceAt (s : State) (i : Instr) (runs : List (Nat × Nat)) (ev : Nat) (rest : Unit → Res) : Res :=
  s.device i (linesOf runs) (fun _ =>
    let t := tileOf s.cur.core
    let c := if i.iRow.contains 0x4C then 0x4C else 0x42
    if s.retryCount i < Config.B && s.askBusy t runs ev then
      .wait (s.askAgain (s.asked t runs ev) ev (some t)) c (linesOf runs)
    else rest ())

/-- MOD.CACHE of the issuing instruction (R71). -/
def State.cachePolicy (s : State) : Nat := (chainMod s.cx.chain).2.2

/-- The first protected byte that an unprivileged write of some parts touches (R81). -/
def State.protectedIn (s : State) (ps : List Part) : Option Nat :=
  if s.priv then none
  else ps.findSome? (fun p => ((fromTo p.pa p.len).find? (fun a => s.isProtected a)).map (fun a => p.va + (a - p.pa)))

/-- The check of a write to the configuration page by parts whose bytes are those of v (R193, R302), with the address of
the part that fails. -/
def State.cfgFault (s : State) (ps : List Part) (v : Nat) : Option (BitVec 6 × Nat) :=
  ps.findSome? (fun p => if isCfg p.pa then (cfgStoreFault s.priv p.pa p.len v).map (fun c => (c, p.va)) else none)
/-- What stops a write of parts, at the lowest faulting address (R81, R193, R302, R333): protected bytes, the configuration
page. -/
def State.writeFault (s : State) (ps : List Part) (v : Nat) : Option (BitVec 6 × Nat) :=
  ps.findSome? (fun p =>
    match s.protectedIn [p] with
    | some va => some (0x03, va)
    | none => s.cfgFault [p] v)

/-- An access of SO pages takes part. -/
def anySo (ps : List Part) : Bool := ps.any (fun p => p.attr.ord == 0)
/-- The ordering kind of an access over parts: SO if any part is, else RC if any is. -/
def ordOf (ps : List Part) : Nat := (ps.map (fun p => p.attr.ord)).foldl min 2
/-- Runs with the attributes of their pages (R199, R229). -/
def withAttr (ps : List Part) (segs : List Seg) : List (Attr × Seg) := (ps.map (fun p => p.attr)).zip segs

/-- The runs of a write of the low bytes of v to parts, lowest first. -/
def segsOf : List Part → Nat → List Seg
  | [], _ => []
  | p :: ps, v => ⟨p.pa, p.va, toLE p.len v⟩ :: segsOf ps (v / 256 ^ p.len)

/-- A read of parts by the issuing context: 0x3B on poison, else the value (R204). -/
def State.readParts (s : State) (ps : List Part) (rest : State → Nat → Res) : Res :=
  match s.partsPoison s.cur.core s.cur.ctx ps with
  | some va => .trap s 0x3B (BitVec.ofNat 64 va)
  | none =>
    let runs := ps.map (fun p => (p.pa, p.len))
    let s1 := ps.foldl (fun t p => t.engineCounters p.pa) (s.beforeRead s.cur.core s.cur.ctx runs (anySo ps))
    rest (s1.readRuns s.cur.core s.myVf s.cachePolicy (ps.map (fun p => (p.pa, p.len, p.attr.cmp))))
      (s1.loadRuns s.cur.core s.cur.ctx runs)

/-- TVAL of a fault at the configuration page: of cause 0x02 the offending word, else the address (R333). -/
def cfgTval (i : Instr) (c : BitVec 6) (va : W64) : W64 := if c = 0x02 then (encode i).zeroExtend 64 else va

/-- Checks of a write by the issuing context. -/
def State.mayWrite (s : State) (i : Instr) (ps : List Part) (v : Nat) (rest : Unit → Res) : Res :=
  match s.writeFault ps v with
  | some (c, va) => .trap s c (cfgTval i c (BitVec.ofNat 64 va))
  | none => rest ()

/-! LD, ST and LDA. -/

/-- Bytes and extension of LD's k (R210). -/
def ldSize (k : BitVec 3) : Nat := 2 ^ (k.toNat / 2)
def ldExtend (k : BitVec 3) (v : Nat) : W64 :=
  match k.toNat with
  | 0 => sext64 (BitVec.ofNat 64 v) 8
  | 2 => sext64 (BitVec.ofNat 64 v) 16
  | 4 => sext64 (BitVec.ofNat 64 v) 32
  | _ => BitVec.ofNat 64 v

/-- The effective address S[a] + imm x size. -/
def State.offsetAddr (s : State) (a : BitVec 6) {w : Nat} (o : BitVec w) (size : Nat) : Nat :=
  (s.getS a + s.imm o * BitVec.ofNat 64 size).toNat

def execLd (g : BitVec 4) (d a : BitVec 6) (k : BitVec 3) (o : BitVec 7) (s : State) : Out :=
  run (.ld g d a k o) g .scalar s (fun t =>
    let va := t.offsetAddr a o (ldSize k)
    t.reach (.ld g d a k o) accR.config (splitPages va (ldSize k)) 0x12 (fun u ps =>
      u.deviceAt (.ld g d a k o) (ps.map (fun p => (p.pa, p.len))) 0 (fun _ =>
        u.readParts ps (fun w v => .done (w.setS d (ldExtend k v))))))

/-- Bytes of ST's k, held as its two upper bits (R211). -/
def stSize (k : BitVec 2) : Nat := 2 ^ k.toNat

def execSt (g : BitVec 4) (d a : BitVec 6) (k : BitVec 2) (o : BitVec 7) (s : State) : Out :=
  run (.st g d a k o) g .scalar s (fun t =>
    let va := t.offsetAddr a o (stSize k)
    let v := (t.getS d).toNat % 256 ^ stSize k
    t.reach (.st g d a k o) accW.config (splitPages va (stSize k)) 0x12 (fun u ps =>
      u.mayWrite (.st g d a k o) ps v (fun _ =>
        u.device (.st g d a k o) [] (fun _ =>
          .done (u.acceptStore .plain u.cachePolicy false (withAttr ps (segsOf ps v)))))))

/-- The bytes of its own workspace that an arrival load reads, as they are at its issue (R82, R212); `none` for a poisoned
one. -/
def State.ownBytes (s : State) (runs : List (Nat × Nat)) : Map (Option Byte) :=
  let n := s.cur.core
  let k := s.cur.ctx
  ((runs.flatMap (fun r => fromTo r.1 r.2)).filter (fun a => s.ws ≤ a && a < s.ws + 0x1400)).map (fun a =>
    (a, if s.poisoned a then none else some (s.lookFor n k a)))

/-- Counts an arrival and puts a load in flight (R212, R214). Its read follows its completion, so of its own workspace it
finds the counter and p6 as the completion leaves them; an earlier flush of its lines is performed first (R228). -/
def State.startLda (s : State) (n : Nat) (l : Lda) : State :=
  let t := (s.beforeAccess s.cur.core s.cur.ctx l.reads (l.ord = 0)).setArrival n ((s.arrival n + 1) % 0x10000)
  t.modCx (fun x => { x with ldas := x.ldas ++ [{ l with own := (t.setP 6 0xFFFFFFFF).ownBytes l.reads }] })

def execLda (g : BitVec 4) (d a : BitVec 6) (n : BitVec 2) (z : BitVec 1) (o : BitVec 7) (s : State) : Out :=
  run (.lda g d a n z o) g .scalar s (fun t =>
    let size := if z = 1 then 8 else 4
    let va := t.offsetAddr a o size
    t.reach (.lda g d a n z o) accR.config (splitPages va size) 0x12 (fun u ps =>
      if u.arrival n.toNat = 0xFFFF then .wait u 0x14 []
      else
        .done (u.startLda n.toNat
          { vec := false, dbl := z = 1, dst := d.toNat, ctr := n.toNat, ws := u.ws, va := va, ord := ordOf ps,
            rm := u.roundMode, bytes := ps.map (fun p => (p.pa, p.len)), elems := [], cache := u.cachePolicy, own := [],
            old := [] })))

/-! Vector accesses (R213 to R216). -/

/-- One guarded element on its way: lane, part, and the scale byte's part where the page has one. -/
structure Lane where
  lane  : Nat
  part  : Part
  scale : Option Part
  deriving DecidableEq, Repr

/-- What the translation of the elements gives. -/
structure LOut where
  lanes : List Lane
  fault : Option (BitVec 6 × Nat)
  tr    : Bool

/-- Translates elements that are taken separately, each after the translation of its address for its attributes and the
test of its own alignment, with its scale byte, in lane order. The first lane that faults counts (R215). -/
def State.separateLanes (s : State) (a : Acc) : List (Nat × Nat) → State × LOut
  | [] => (s, ⟨[], none, false⟩)
  | (j, va) :: rest =>
    match s.place s.me { a with attr := true } va with
    | (s1, .bad c) => (s1, ⟨[], some (c, va), false⟩)
    | (s1, .at _ at0 _) =>
      let e := fmtBytes at0.fmt
      if va % e ≠ 0 then (s1, ⟨[], some (0x07, va), false⟩)
      else
        match s1.place s1.me a va with
        | (s2, .bad c) => (s2, ⟨[], some (c, va), false⟩)
        | (s2, .at pa at1 tr) =>
          let p : Part := ⟨pa, va, e, at1⟩
          if at1.sh then
            let sva := s2.scaleAddr s2.me va at1
            match s2.place s2.me accR.config sva with
            | (s3, .bad c) => (s3, ⟨[], some (c, sva), false⟩)
            | (s3, .at spa sat str) =>
              let r := s3.separateLanes a rest
              (r.1, ⟨⟨j, p, some ⟨spa, sva, 1, sat⟩⟩ :: r.2.lanes, r.2.fault, tr || str || r.2.tr⟩)
          else
            let r := s2.separateLanes a rest
            (r.1, ⟨⟨j, p, none⟩ :: r.2.lanes, r.2.fault, tr || r.2.tr⟩)

/-- Translates the elements of a contiguous access without their scale bytes, from the lowest address up (R203). -/
def State.dataLanes (s : State) (a : Acc) : List (Nat × Nat) → State × LOut
  | [] => (s, ⟨[], none, false⟩)
  | (j, va) :: rest =>
    match s.place s.me a va with
    | (s1, .bad c) => (s1, ⟨[], some (c, va), false⟩)
    | (s1, .at pa at1 tr) =>
      let r := s1.dataLanes a rest
      (r.1, ⟨⟨j, ⟨pa, va, fmtBytes at1.fmt, at1⟩, none⟩ :: r.2.lanes, r.2.fault, tr || r.2.tr⟩)

/-- Translates the scale bytes of elements, which lie above the elements (R127). -/
def State.scaleLanes (s : State) : List Lane → State × LOut
  | [] => (s, ⟨[], none, false⟩)
  | l :: rest =>
    if l.part.attr.sh then
      let sva := s.scaleAddr s.me l.part.va l.part.attr
      match s.place s.me accR.config sva with
      | (s1, .bad c) => (s1, ⟨[], some (c, sva), false⟩)
      | (s1, .at spa sat str) =>
        let r := s1.scaleLanes rest
        (r.1, ⟨{ l with scale := some ⟨spa, sva, 1, sat⟩ } :: r.2.lanes, r.2.fault, str || r.2.tr⟩)
    else
      let r := s.scaleLanes rest
      (r.1, ⟨l :: r.2.lanes, r.2.fault, r.2.tr⟩)

/-- Translates the elements at the given addresses; `own` says whether each is taken separately (R215). -/
def State.xlateLanes (s : State) (own : Bool) (a : Acc) (lanes : List (Nat × Nat)) : State × LOut :=
  if own then s.separateLanes a lanes
  else
    let r := s.dataLanes a lanes
    if r.2.fault.isSome then r
    else
      let q := r.1.scaleLanes r.2.lanes
      (q.1, ⟨q.2.lanes, q.2.fault, r.2.tr || q.2.tr⟩)

/-- The guarded lanes of the issuing vector instruction. -/
def State.guardLanes (s : State) (g : BitVec 4) : List Nat := (fromTo 0 32).filter (fun i => (s.guard g).getLsbD i)

/-- Two pages give elements alike (R214). G is compared whether or not the scale shadow is on: R126 ignores it then, and
R214 compares it (DESIGN CHOICE, log 70). -/
def Attr.agrees (x y : Attr) : Bool := x.fmt == y.fmt && x.g == y.g && x.sh == y.sh

/-- Step 4 of a vector access over lanes: walk outcome, faults, and then, of a contiguous access, pages that do not agree
with that of its address, then a page in transit, that page among them. -/
def State.reachLanes (s : State) (i : Instr) (a : Acc) (base : Option (Nat × Attr × Bool)) (lanes : List (Nat × Nat))
    (rest : State → List Lane → Res) : Res :=
  let r := s.xlateLanes base.isNone a lanes
  let vas := lanes.map (fun l => l.2) ++ r.2.lanes.filterMap (fun l => l.scale.map (fun p => p.va))
  let c := s.discretion4 i s.me vas
  if c ≠ 0 then
    .wait (s.walking s.me c vas r.1) c
      (partLines ((if a.r then r.2.lanes.map (fun l => l.part) else []) ++ r.2.lanes.filterMap (fun l => l.scale)))
  else match r.2.fault with
    | some (cause, va) => .trap r.1 cause (BitVec.ofNat 64 va)
    | none =>
      match base with
      | some (va, at0, tr) =>
        if r.2.lanes.any (fun l => !l.part.attr.agrees at0) then .trap r.1 0x07 (BitVec.ofNat 64 va)
        else if tr || r.2.tr then .wait r.1 0x12 [] else rest r.1 r.2.lanes
      | none => if r.2.tr then .wait r.1 0x12 [] else rest r.1 r.2.lanes

/-- The lines of the guarded elements of a contiguous access from `va` on, of a load those of its data and of either those
of its scale bytes, for a landing reservation (R40, R208). -/
def State.vectorLines (s : State) (i : Instr) (g : BitVec 4) (va size : Nat) : List Nat :=
  let l := (s.xlateLanes false accR.config ((s.guardLanes g).map (fun j => (j, (va + j * size) % 2 ^ 64)))).2.lanes
  partLines ((match i with | .vst _ _ _ _ => [] | _ => l.map (fun x => x.part)) ++ l.filterMap (fun x => x.scale))

/-- Where a contiguous vector access begins (R213): S[a] is translated for its element size when the offset is not zero;
the cause, or A with the state after the translation. -/
def State.vectorStart (s : State) (a : BitVec 6) (off : W64) : State × Sum (BitVec 6) Nat :=
  if off = 0 then (s, .inr (s.getS a).toNat)
  else
    match s.place s.me accAttr (s.getS a).toNat with
    | (s1, .bad c) => (s1, .inl c)
    | (s1, .at _ at0 _) => (s1, .inr (s.getS a + off * BitVec.ofNat 64 (32 * fmtBytes at0.fmt)).toNat)

/-- The address and attributes of a contiguous vector access (R213): S[a] is translated for its element size when the
offset is not zero, then the page of A for its attributes; neither tests a permission. A walk outcome of either page and a
misaligned A come here too. -/
def State.vectorBase (s : State) (i : Instr) (g : BitVec 4) (a : BitVec 6) (o : BitVec 7)
    (rest : State → Nat → Attr → Bool → Res) : Res :=
  let base := (s.getS a).toNat
  let b := s.vectorStart a (s.imm o)
  let vas := match b.2 with
    | .inl _ => [base]
    | .inr va => if s.imm o = 0 then [va] else [base, va]
  let c0 := s.discretion4 i s.me vas
  match b.2 with
  | .inl c => if c0 ≠ 0 then .wait (s.walking s.me c0 vas b.1) c0 [] else .trap b.1 c (BitVec.ofNat 64 base)
  | .inr va =>
    match b.1.place s.me accAttr va with
    | (s2, .bad c) => if c0 ≠ 0 then .wait (s.walking s.me c0 vas s2) c0 [] else .trap s2 c (BitVec.ofNat 64 va)
    | (s2, .at _ at1 tr) =>
      if c0 ≠ 0 then .wait (s.walking s.me c0 vas s2) c0 (s.vectorLines i g va (fmtBytes at1.fmt))
      else if va % fmtBytes at1.fmt ≠ 0 then .trap s2 0x07 (BitVec.ofNat 64 va)
      else rest s2 va at1 tr

/-- The guarded elements of a contiguous access, whose pages agree with the page of A (R214). -/
def State.contiguous (s : State) (i : Instr) (g : BitVec 4) (acc : Acc) (a : BitVec 6) (o : BitVec 7)
    (rest : State → List Lane → Res) : Res :=
  s.vectorBase i g a o (fun t va at0 tr =>
    t.reachLanes i acc (some (va, at0, tr)) ((t.guardLanes g).map (fun j => (j, (va + j * fmtBytes at0.fmt) % 2 ^ 64))) rest)

/-- An element for a load, in flight or at once. -/
def Lane.elem (l : Lane) : Elem :=
  ⟨l.lane, l.part.pa, l.part.va, l.part.attr, l.scale.map (fun p => (p.pa, p.va))⟩
def laneRuns (ls : List Lane) : List (Nat × Nat) :=
  ls.map (fun l => (l.part.pa, l.part.len)) ++ ls.filterMap (fun l => l.scale.map (fun p => (p.pa, 1)))
def laneParts (ls : List Lane) : List Part := ls.map (fun l => l.part)
def scaleParts (ls : List Lane) : List Part := ls.filterMap (fun l => l.scale)

/-- The runs of elements and scale bytes with their pages' leave to compress. -/
def laneCached (ls : List Lane) : List (Nat × Nat × Bool) :=
  ls.map (fun l => (l.part.pa, l.part.len, l.part.attr.cmp)) ++
    ls.filterMap (fun l => l.scale.map (fun p => (p.pa, 1, p.attr.cmp)))

/-- The poison that a vector load meets: at the lowest address of a contiguous access, of the lowest lane of elements
taken separately (R203, R215). -/
def State.lanesPoison (s : State) (own : Bool) (ls : List Lane) : Option Nat :=
  let n := s.cur.core
  let k := s.cur.ctx
  if own then ls.findSome? (fun l => s.elemsPoison n k [l.elem]) else s.elemsPoison n k (ls.map Lane.elem)

/-- Loads elements into V[d] (R128). -/
def State.loadLanes (s : State) (i : Instr) (own : Bool) (d : BitVec 5) (ls : List Lane) : Res :=
  s.deviceAt i (laneRuns ls) 0 (fun _ =>
    match s.lanesPoison own ls with
    | some va => .trap s 0x3B (BitVec.ofNat 64 va)
    | none =>
      let n := s.cur.core
      let k := s.cur.ctx
      let s1 := ls.foldl (fun t l => t.engineCounters l.part.pa) (s.beforeRead n k (laneRuns ls)
        (anySo (laneParts ls ++ scaleParts ls)))
      let s2 := s1.readRuns n s.myVf s.cachePolicy (laneCached ls)
      .done ((s2.drawn s1.cx.past).setVAt s1.ws d.toNat (ls.map (fun l => (l.lane, s1.laneOf n k s.roundMode l.elem)))))

/-- The elements that a vector store writes, in lane order, with the generators after them (R129, R132). -/
def State.storeLanes (s : State) (d : BitVec 5) : List Lane → Map W32 → List Seg × Map W32
  | [], gens => ([], gens)
  | l :: ls, gens =>
    let gen := (mapGet gens l.lane).getD 1
    let sc := match l.scale with
      | some p => (s.lookFor s.cur.core s.cur.ctx p.pa).toNat
      | none => 127
    let r := storeElem l.part.attr.fmt l.part.attr.sh sc s.roundMode gen (s.getV d l.lane)
    let rest := s.storeLanes d ls (if r.2 = gen then gens else mapSet gens l.lane r.2)
    (⟨l.part.pa, l.part.va, toLE l.part.len r.1⟩ :: rest.1, rest.2)

/-- What stops the store of one element: poison of its scale byte, a protected byte, the configuration page. -/
def State.laneFault (s : State) (l : Lane) (g : Seg) : Option (BitVec 6 × Nat) :=
  match s.partsPoison s.cur.core s.cur.ctx l.scale.toList with
  | some va => some (0x3B, va)
  | none =>
    match s.protectedIn [l.part] with
    | some va => some (0x03, va)
    | none =>
      if isCfg g.pa then (cfgStoreFault s.priv g.pa g.bytes.length (leNat g.bytes)).map (fun c => (c, g.va)) else none

/-- Stores V[d] to elements (R129); the first lane that faults counts (R215). A handler's stochastic rounding draws from
its AWAY context's core (DESIGN CHOICE, log 65). -/
def State.putLanes (s : State) (i : Instr) (scatter : Bool) (d : BitVec 5) (ls : List Lane) : Res :=
  let t := s.beforeRead s.cur.core s.cur.ctx ((scaleParts ls).map (fun p => (p.pa, 1))) (anySo (scaleParts ls))
  let r := t.storeLanes d ls (t.core t.cur.core).gens
  match (ls.zip r.1).findSome? (fun x => t.laneFault x.1 x.2) with
  | some (c, va) => .trap t c (cfgTval i c (BitVec.ofNat 64 va))
  | none =>
    t.device i [] (fun _ =>
      .done ((t.acceptStore .plain t.cachePolicy scatter (withAttr (laneParts ls) r.1)).modCore t.cur.core (fun c =>
        { c with gens := r.2 })))

def execVld (g : BitVec 4) (d : BitVec 5) (a : BitVec 6) (o : BitVec 7) (s : State) : Out :=
  run (.vld g d a o) g .lanes s (fun t =>
    t.contiguous (.vld g d a o) g accR.config a o (fun u ls => u.loadLanes (.vld g d a o) false d ls))

def execVst (g : BitVec 4) (d : BitVec 5) (a : BitVec 6) (o : BitVec 7) (s : State) : Out :=
  run (.vst g d a o) g .lanes s (fun t =>
    t.contiguous (.vst g d a o) g accW.config a o (fun u ls => u.putLanes (.vst g d a o) false d ls))

def execVlda (g : BitVec 4) (d : BitVec 5) (a : BitVec 6) (k : BitVec 3) (o : BitVec 7) (s : State) : Out :=
  run (.vlda g d a k o) g .lanes s (fun t =>
    t.contiguous (.vlda g d a k o) g accR.config a o (fun u ls =>
      let n := k.toNat - 2
      if u.arrival n = 0xFFFF then .wait u 0x14 []
      else
        .done (u.startLda n
          { vec := true, dbl := false, dst := d.toNat, ctr := n, ws := u.ws,
            va := (match ls with | l :: _ => l.part.va | [] => 0), ord := ordOf (laneParts ls ++ scaleParts ls),
            rm := u.roundMode, bytes := [], elems := ls.map Lane.elem, cache := u.cachePolicy, own := [], old := [] })))

/-- Addresses of a strided access (R215). -/
def State.strided (s : State) (g : BitVec 4) (a b : BitVec 6) : List (Nat × Nat) :=
  (s.guardLanes g).map (fun j => (j, (s.getS a + BitVec.ofNat 64 j * s.getS b).toNat))
/-- Addresses of an indexed access (R215). -/
def State.indexed (s : State) (g : BitVec 4) (a : BitVec 6) (v : BitVec 5) : List (Nat × Nat) :=
  (s.guardLanes g).map (fun j => (j, (s.getS a + (s.getV v j).signExtend 64).toNat))

def execVlds (g : BitVec 4) (d : BitVec 5) (a b : BitVec 6) (s : State) : Out :=
  run (.vlds g d a b) g .lanes s (fun t =>
    t.reachLanes (.vlds g d a b) accR.config none (t.strided g a b) (fun u ls => u.loadLanes (.vlds g d a b) true d ls))
def execVsts (g : BitVec 4) (d : BitVec 5) (a b : BitVec 6) (s : State) : Out :=
  run (.vsts g d a b) g .lanes s (fun t =>
    t.reachLanes (.vsts g d a b) accW.config none (t.strided g a b) (fun u ls => u.putLanes (.vsts g d a b) true d ls))
def execVldx (g : BitVec 4) (d : BitVec 5) (a : BitVec 6) (v : BitVec 5) (s : State) : Out :=
  run (.vldx g d a v) g .lanes s (fun t =>
    t.reachLanes (.vldx g d a v) accR.config none (t.indexed g a v) (fun u ls => u.loadLanes (.vldx g d a v) true d ls))
def execVstx (g : BitVec 4) (d : BitVec 5) (a : BitVec 6) (v : BitVec 5) (s : State) : Out :=
  run (.vstx g d a v) g .lanes s (fun t =>
    t.reachLanes (.vstx g d a v) accW.config none (t.indexed g a v) (fun u ls => u.putLanes (.vstx g d a v) true d ls))

/-! LDL, STL and PST (R217, R218). -/

/-- The local-window entry's ordering kind at an offset. -/
def State.windowOrd (s : State) (x : Nat) : Nat := fld ((s.quad s.q).attr (x / 0x20000)) 15 14
/-- The part of local memory that an offset form reaches. -/
def State.offsetPart (s : State) (x size : Nat) : Part :=
  ⟨quadLocal s.q + x, x, size, { ord := s.windowOrd x, sh := false, cmp := false, g := 0, fmt := 0 }⟩

def execLdl (g : BitVec 4) (d a b : BitVec 6) (z : BitVec 1) (s : State) : Out :=
  run (.ldl g d a b z) g .scalar s (fun t =>
    let size := if z = 1 then 8 else 4
    let x := (t.getS a + t.getS b).toNat
    if x + size > Memory.localSize then .trap t 0x10 (BitVec.ofNat 64 x)
    else t.device (.ldl g d a b z) [lineOf (quadLocal t.q + x)] (fun _ =>
      t.readParts [t.offsetPart x size] (fun w v => .done (w.setS d (BitVec.ofNat 64 v)))))

def execStl (g : BitVec 4) (d a b : BitVec 6) (z : BitVec 1) (s : State) : Out :=
  run (.stl g d a b z) g .scalar s (fun t =>
    let size := if z = 1 then 8 else 4
    let x := (t.getS a + t.getS b).toNat
    let v := (t.getS d).toNat % 256 ^ size
    if x + size > Memory.localSize then .trap t 0x10 (BitVec.ofNat 64 x)
    else if x % size ≠ 0 then .trap t 0x07 (BitVec.ofNat 64 x)
    else t.mayWrite (.stl g d a b z) [t.offsetPart x size] v (fun _ =>
      t.device (.stl g d a b z) [] (fun _ =>
        .done (t.acceptStore .plain 0 false (withAttr [t.offsetPart x size] (segsOf [t.offsetPart x size] v))))))

/-- The lowest FREE journal entry of a core (R327). -/
def Core.freeEntry (c : Core) : Option Nat := (fromTo 0 32).find? (fun j => (c.entry j).state == .free)

/-- Takes the next order number of the package. -/
def State.nextOrder (s : State) : Nat × State := (s.hub.order, s.modHub (fun h => { h with order := h.order + 1 }))

def execPst (g : BitVec 4) (d a : BitVec 6) (z : BitVec 1) (s : State) : Out :=
  run (.pst g d a z) g .scalar s (fun t =>
    let size := if z = 1 then 8 else 4
    let va := (t.getS a).toNat
    let v := (t.getS d).toNat % 256 ^ size
    if va % size ≠ 0 then .trap t 0x07 (t.getS a)
    else t.reach (.pst g d a z) accW.config.global (splitPages va size) 0x12 (fun u ps =>
      match u.cfgFault ps v with
      | some (c, _) => .trap u c (cfgTval (.pst g d a z) c (t.getS a))
      | none =>
        match (u.core u.cur.core).freeEntry with
        | none => .wait u 0x13 []
        | some j =>
          u.device (.pst g d a z) [] (fun _ =>
            let n := u.cur.core
            let k := u.cur.ctx
            let segs := segsOf ps v
            let ord := (ps.map (fun p => storeOrd p.attr.ord p.pa)).foldl min 2
            let u1 := (u.beforeRead n k (segRuns segs) (ord = 0)).performThrough n k
              (fun p => overlap (segRuns p.segs) (segRuns segs) || (ord = 0 && p.ord = 0))
            let o := u1.nextOrder
            let v1 := o.2.modEntry n j (fun _ =>
              { state := .pending, cause := 0, owner := k, priv := u.priv, dbl := z = 1, va := t.getS a, vf := u.myVf,
                ord := ord, segs := segs, order := o.1 })
            .done (if overlap (segRuns segs) [(u.ws, 0x1400)] then v1.settlePost n j else v1))))

/-! PREF, CFETCH and FLUSH (R219 to R221). -/

/-- A line joins the core's fill queue. The manual gives the queue no size: while it holds a line, whether it is full is
free (DESIGN CHOICE, log 10). -/
def State.askLine (s : State) (n line : Nat) : State :=
  let add (t : State) : State := t.modCore n (fun c => { c with fills := c.fills ++ [line] })
  if (s.core n).fills.isEmpty then add s
  else
    let d := s.draw
    if (Config.freeValue d.1).getLsbD 0 then d.2 else add d.2

/-- PREF: nothing where the translation faults, the page is in transit or the line is not cached memory (R219). -/
def execPref (g : BitVec 4) (a : BitVec 6) (s : State) : Out :=
  run (.pref g a) g .scalar s (fun t =>
    match t.place t.me accR (t.getS a).toNat with
    | (u, .at pa _ tr) => .done (if tr || !(isHbm pa || isHost pa) then u else u.askLine u.cur.core (lineOf pa))
    | (u, .bad _) => .done u)

/-- The slot that counts for a context of a core: that of its TPC while AWAY, or STOPPED out of AWAY (R196). -/
def State.heldSlot (s : State) (n k : Nat) : Nat :=
  let x := s.ctx n k
  if x.st = .away || (x.st = .stopped && x.prior = .away) then s.peek (s.wsOf n k + 0x1270) 4 / 1024 % 16
  else pcSlot x.pc
/-- A slot is occupied while a context that is not FREE names it (R196). -/
def State.occupied (s : State) (n slot : Nat) : Bool :=
  (fromTo 0 16).any (fun k => (s.ctx n k).st != .free && s.heldSlot n k == slot)

def execCfetch (g : BitVec 4) (a : BitVec 6) (sl : BitVec 4) (s : State) : Out :=
  run (.cfetch g a sl) g .scalar s (fun t =>
    let va := t.getS a
    if va.toNat % 4096 ≠ 0 then .trap t 0x07 va
    else t.reach (.cfetch g a sl) accX [(va.toNat, 4096)] 0x12 (fun u ps =>
      if u.occupied u.cur.core sl.toNat then .trap u 0x08 0
      else if ((u.core u.cur.core).slot sl.toNat).state = .filling then .wait u 0x1A []
      else u.device (.cfetch g a sl) [] (fun _ =>
        .done (u.modSlot u.cur.core sl.toNat (fun x =>
          { x with state := .filling, sva := va, vf := u.myVf, frame := (match ps with | p :: _ => p.pa | [] => 0) })))))

def execFlush (g : BitVec 4) (a : BitVec 6) (s : State) : Out :=
  run (.flush g a) g .scalar s (fun t =>
    t.reach (.flush g a) accR [((t.getS a).toNat, 1)] 0x12 (fun u ps =>
      u.deviceAt (.flush g a) (ps.map (fun p => (p.pa, p.len))) 12 (fun _ =>
        match ps with
        | p :: _ =>
          .done (if isHbm p.pa || isHost p.pa then
            (u.beforeStore u.cur.core u.cur.ctx [(64 * lineOf p.pa, 64)] (p.attr.ord = 0)).modCx (fun x =>
              { x with ops := x.ops ++ [.flush (lineOf p.pa) u.myVf p.attr.ord] }) else u)
        | [] => .done u)))

/-! AMO and RED (R222 to R224). -/

/-- The combination of an AMO or RED of w bytes (R222). -/
def amoNew (w f old y c : Nat) : Nat :=
  let m := 256 ^ w
  let sgn (x : Nat) : Int := if x < m / 2 then x else (x : Int) - m
  match f with
  | 0 => (old + y) % m
  | 1 => old &&& y
  | 2 => old ||| y
  | 3 => old ^^^ y
  | 4 => if sgn old ≤ sgn y then old else y
  | 5 => if sgn y ≤ sgn old then old else y
  | 6 => min old y
  | 7 => max old y
  | 8 => y
  | _ => if old = c then y else old

/-- Performs the write of an atomic at the word's home or bank, with what it sets off (R224, R278): an add is an add
to the 8-byte word that holds it, and the barrier is tested after an add to its byte word (R296). -/
def State.atomicWrite (s : State) (vf : Nat) (p : Part) (isAdd : Bool) (v : Nat) : State :=
  let word := p.pa / 8 * 8
  let before := s.view word 8
  let s1 := (((s.chargeHbm vf [(p.pa, p.len)]).beforeWrite [(p.pa, p.len)]).store (s.clip ⟨p.pa, p.va, toLE p.len v⟩)).written [(p.pa, p.len)]
  if isAdd then
    let s2 := s1.noteAdd vf word (p.va / 8 * 8) before (s1.view word 8)
    if isLocal word && word % 16 = 8 then s2.barrierTest (word - 8) else s2
  else s1.noteWrite vf [⟨p.pa, p.va, toLE p.len v⟩]

/-- AMO and RED up to their effect (R222, R223): the part, and the old value. -/
def State.reachAtomic (s : State) (i : Instr) (a : BitVec 6) (size ev : Nat) (rest : State → Part → Nat → Res) : Res :=
  let va := (s.getS a).toNat
  if va % size ≠ 0 then .trap s 0x04 (s.getS a)
  else s.reach i accRW.config (splitPages va size) 0x12 (fun u ps =>
    match ps with
    | [] => .trap u 0x10 (s.getS a)
    | p :: _ =>
      match u.protectedIn ps with
      | some b => .trap u 0x03 (BitVec.ofNat 64 b)
      | none =>
        if isCfg p.pa then
          .trap u (if u.priv then 0x02 else 0x03) (cfgTval i (if u.priv then 0x02 else 0x03) (s.getS a))
        else u.deviceAt i (ps.map (fun x => (x.pa, x.len))) ev (fun _ =>
          let u1 := u.beforeHome u.cur.core u.cur.ctx [(p.pa, p.len)] (p.attr.ord = 0)
          match u1.partsPoison u.cur.core u.cur.ctx ps with
          | some b => .trap u1 0x3B (BitVec.ofNat 64 b)
          | none => rest u1 p (u1.view p.pa p.len)))

def execAmo (z : BitVec 1) (g : BitVec 4) (d a b : BitVec 6) (f : BitVec 4) (s : State) : Out :=
  run (.amo z g d a b f) g .scalar s (fun t =>
    let size := if z = 1 then 8 else 4
    t.reachAtomic (.amo z g d a b f) a size 3 (fun u p old =>
      let y := (t.getS b).toNat % 256 ^ size
      let c := (t.getS d).toNat % 256 ^ size
      let u0 := (u.serveRuns [(p.pa, p.len)] 3 (some (tileOf u.cur.core))).chargeHbm u.myVf [(p.pa, p.len)]
      if u.refuses p.pa 3 then .trap u0 0x19 (t.getS a)
      else
        let u1 := if (f = 9 && old ≠ c) || !u.takes p.pa 3 then u0
          else u0.atomicWrite u.myVf p (f = 0) (amoNew size f.toNat old y c)
        .done (u1.setS d (if z = 1 then BitVec.ofNat 64 old else sext64 (BitVec.ofNat 64 old) 32))))

/-- RED: memory takes the combination at once; under the RED culture the home notes the private buffer that holds it until
a merge (log 6, log 26). -/
def execRed (z : BitVec 1) (g : BitVec 4) (a b : BitVec 6) (f : BitVec 3) (s : State) : Out :=
  run (.red z g a b f) g .scalar s (fun t =>
    let size := if z = 1 then 8 else 4
    t.reachAtomic (.red z g a b f) a size 4 (fun u p old =>
      let y := (t.getS b).toNat % 256 ^ size
      let u0 := (u.serveRuns [(p.pa, p.len)] 4 (some (tileOf u.cur.core))).chargeHbm u.myVf [(p.pa, p.len)]
      if u.refuses p.pa 4 then .done (u0.pendCause u.cur.core u.cur.ctx 0x19 (t.getS a) true)
      else if !u.takes p.pa 4 then .done u0
      else .done (u0.atomicWrite u.myVf p (f = 0) (amoNew size f.toNat old y 0))))

/-! RELST, ACQLD and FENCE (R236 to R239). -/

/-- On a service core the core and quad scopes behave as tile (R226). -/
def State.scopeFor (s : State) (sc : BitVec 3) : Nat := if s.priv then max sc.toNat 2 else sc.toNat
/-- Of a scope that an event has by itself, the same (R226, R234). -/
def State.scopeHere (s : State) (sc : Nat) : Nat := if s.priv then max sc 2 else sc

def execRelst (g : BitVec 4) (d a : BitVec 6) (sc : BitVec 3) (z : BitVec 1) (s : State) : Out :=
  run (.relst g d a sc z) g .scalar s (fun t =>
    let size := if z = 1 then 8 else 4
    let va := (t.getS a).toNat
    let v := (t.getS d).toNat % 256 ^ size
    if va % size ≠ 0 then .trap t 0x04 (t.getS a)
    else t.reach (.relst g d a sc z) accW.config (splitPages va size) 0x12 (fun u ps =>
      u.mayWrite (.relst g d a sc z) ps v (fun _ =>
        if u.unperformed false then .wait u 0x19 []
        else u.device (.relst g d a sc z) [] (fun _ =>
          .done ((u.raiseRel u.cur.core).acceptStore (.release (u.scopeFor sc)) 0 false (withAttr ps (segsOf ps v)))))))

/-- The bytes of a run that the issuing context reads from memory, not from its own stores that are not yet performed
(R228, R255). -/
def State.unforwarded (s : State) (pa len : Nat) : List Nat :=
  (fromTo pa len).filter (fun a => (s.ownStore s.cur.core s.cur.ctx a).isNone)
/-- An acquire of the issuing context that reads a run meets the release tag of its line (R255). -/
def State.meetTagOf (s : State) (pa len : Nat) : State :=
  s.meetTag s.cur.core s.priv (lineOf pa) (s.unforwarded pa len)

def execAcqld (g : BitVec 4) (d a : BitVec 6) (sc : BitVec 3) (z : BitVec 1) (s : State) : Out :=
  run (.acqld g d a sc z) g .scalar s (fun t =>
    let size := if z = 1 then 8 else 4
    let va := (t.getS a).toNat
    if va % size ≠ 0 then .trap t 0x04 (t.getS a)
    else t.reach (.acqld g d a sc z) accR.config (splitPages va size) 0x12 (fun u ps =>
      u.deviceAt (.acqld g d a sc z) (ps.map (fun p => (p.pa, p.len))) 0 (fun _ =>
        u.readParts ps (fun w v =>
          let w1 := match ps with
            | p :: _ => w.meetTagOf p.pa p.len
            | [] => w
          .done ((w1.acquire w1.cur.core (w1.scopeFor sc)).setS d
            (if z = 1 then BitVec.ofNat 64 v else sext64 (BitVec.ofNat 64 v) 32))))))

def execFence (g : BitVec 4) (sc : BitVec 3) (s : State) : Out :=
  run (.fence g sc) g .scalar s (fun t =>
    if t.unperformed true then .wait t 0x19 []
    else .done ((t.raiseRel t.cur.core).acquire t.cur.core (t.scopeFor sc)))

end Sys2Proof.Machine
end

