-- ==== Sys2Proof/Machine/Counters.lean ====
section
/-!
DEFINITION. Timelines, waiting and barriers (R281 to R287, R296 to R298), and the neighbour instructions (R86, R87)
with the landing of a neighbour write.
-/

namespace Sys2Proof.Machine

/-! Timelines (R283, R284). -/

/-- A counter add made by the issuing context: a refusal of the culture follows as cause 0x19 (R268). -/
def State.addHere (s : State) (p : Part) (amount : Nat) : State :=
  let r := s.counterAdd (tileOf s.cur.core) s.myVf p.pa p.va amount
  if r.2 then r.1 else r.1.pendCause s.cur.core s.cur.ctx 0x19 (BitVec.ofNat 64 p.va) true

def execTladd (g : BitVec 4) (sc : BitVec 3) (a b : BitVec 6) (s : State) : Out :=
  run (.tladd g sc a b) g .scalar s (fun t =>
    let va := (t.getS a).toNat
    if va % 8 ≠ 0 then .trap t 0x04 (t.getS a)
    else t.reach (.tladd g sc a b) accRW.config.global [(va, 8)] 0x12 (fun u ps =>
      match ps with
      | [] => .trap u 0x10 (t.getS a)
      | p :: _ =>
        match u.protectedIn ps with
        | some x => .trap u 0x03 (BitVec.ofNat 64 x)
        | none =>
          if isCfg p.pa then
            .trap u (if u.priv then 0x02 else 0x03) (cfgTval (.tladd g sc a b) (if u.priv then 0x02 else 0x03) (t.getS a))
          else u.deviceAt (.tladd g sc a b) (ps.map (fun x => (x.pa, x.len))) 3 (fun _ =>
            let v := u.performAll u.cur.core u.cur.ctx
            match v.partsPoison v.cur.core v.cur.ctx ps with
            | some x => .trap v 0x3B (BitVec.ofNat 64 x)
            | none => .done (v.addHere p (t.getS b).toNat))))

/-- WAITGE (R284): the test of the value is an A-class condition, before the I-class ones (R35, R282). -/
def execWaitge (g : BitVec 4) (sc : BitVec 3) (a b : BitVec 6) (s : State) : Out :=
  run (.waitge g sc a b) g .scalar s (fun t =>
    let va := (t.getS a).toNat
    if va % 8 ≠ 0 then .trap t 0x04 (t.getS a)
    else t.reach (.waitge g sc a b) accR.config.global [(va, 8)] 0x04 (fun u ps =>
      u.readParts ps (fun w v =>
        if v < (t.getS b).toNat then .wait u 0x04 []
        else u.deviceAt (.waitge g sc a b) (ps.map (fun p => (p.pa, p.len))) 0 (fun _ =>
          let w1 := match ps with
            | p :: _ => w.meetTagOf p.pa p.len
            | [] => w
          .done (w1.acquire w1.cur.core (w1.scopeFor sc))))))

/-- WAITA (R285). -/
def execWaita (g : BitVec 4) (n : BitVec 2) (s : State) : Out :=
  run (.waita g n) g .scalar s (fun t => if t.arrival n.toNat = 0 then .done t else .wait t 0x05 [])

/-! Waiting on an address (R286, R287). -/

/-- The key under which a word is watched (R278, R286). -/
def State.watchKey (s : State) (va pa : Nat) : WakeKey :=
  if isLocal pa then ⟨s.myVf, localWin + localOff pa, true, localQuad pa⟩ else ⟨s.myVf, va, false, 0⟩

/-- Registers or re-arms an entry of the issuing context. -/
def State.register (s : State) (k : WakeKey) (mode va : Nat) (target : W64) (latch : Bool) : State :=
  let w : Waiter := .ctx s.cur.core s.cur.ctx
  let e : WaitEntry :=
    { latch := latch, mode := mode, va := k.va, target := target, vf := k.vf, waiter := w, loc := k.loc,
      quad := k.quad, asked := va, hoop := (s.core s.cur.core).hoop }
  s.modHub (fun h => { h with waits := h.waits.filter (fun x => !(x.waiter == w && x.hoop == e.hoop && x.hasKey k)) ++ [e] })

/-- The entries of a VF in use (R277). -/
def State.waitsOf (s : State) (vf : Nat) : Nat := (s.hub.waits.filter (fun e => e.vf == vf)).length

def execWatch (g : BitVec 4) (m : BitVec 2) (a b : BitVec 6) (s : State) : Out :=
  run (.watch g m a b) g .scalar s (fun t =>
    let va := (t.getS a).toNat
    if va % 8 ≠ 0 then .trap t 0x04 (t.getS a)
    else t.reach (.watch g m a b) accR.config.global [(va, 8)] 0x12 (fun u ps =>
      let pa := match ps with | p :: _ => p.pa | [] => 0
      let k := u.watchKey va pa
      let mine := u.hub.waits.any (fun e =>
        e.waiter == .ctx u.cur.core u.cur.ctx && e.hoop == (u.core u.cur.core).hoop && e.hasKey k)
      let target : W64 := if m = 1 then t.getS b else 0
      if !mine && u.waitsOf u.myVf ≥ (u.vf u.myVf).record.wwq then .wait u 0x15 []
      else if m = 1 && u.poisoned pa then .trap u 0x3B (t.getS a)
      else .done (u.register k m.toNat va target (m = 1 && target.toNat ≤ u.view pa 8))))

def execWake (g : BitVec 4) (a : BitVec 6) (s : State) : Out :=
  run (.wake g a) g .scalar s (fun t =>
    let va := (t.getS a).toNat
    if va ≥ 2 ^ 56 then .trap t 0x10 (t.getS a)
    else t.device (.wake g a) [] (fun _ =>
      let w := va / 8 * 8
      let loc := localWin ≤ w && w < localWin + Memory.localSize
      .done ((t.performAll t.cur.core t.cur.ctx).wakeKey ⟨t.myVf, w, loc, if loc then t.q else 0⟩)))

/-! Barriers (R30, R31, R296 to R298). -/

/-- Step 4 of R35 for a barrier record: at a place that is not local memory, cause 0x15 (R296). -/
def State.reachRecord (s : State) (i : Instr) (a : Acc) (va : W64) (trc : Nat) (rest : State → Part → Res) : Res :=
  let r := s.xlate s.me a [(va.toNat, 16)]
  let c := s.discretion4 i s.me [va.toNat]
  if c ≠ 0 then .wait (s.walking s.me c [va.toNat] r.1) c (partLines r.2.parts)
  else match r.2.fault with
    | some (cause, x) => .trap r.1 cause (BitVec.ofNat 64 x)
    | none =>
      match r.2.parts with
      | [] => .trap r.1 0x15 va
      | p :: _ => if !isLocal p.pa then .trap r.1 0x15 va else if r.2.tr then .wait r.1 trc [] else rest r.1 p

/-- A sub-hoop descriptor is valid in the hoop of a core (R31). -/
def subHoopOk (c : Core) (d : W64) : Bool :=
  let lh := fld d 16 14
  let lw := fld d 13 11
  fld d 63 17 = 0 && lh ≤ 4 && fld d 10 6 % 2 ^ lh = 0 && fld d 5 0 % 2 ^ lw = 0 &&
    fld d 5 0 + 2 ^ lw ≤ hoopW c && fld d 10 6 + 2 ^ lh ≤ hoopH c
/-- Core n lies in the sub-hoop. -/
def inSubHoop (c : Core) (n : Nat) (d : W64) : Bool :=
  let x := hoopOx c + fld d 5 0
  let y := hoopOy c + fld d 10 6
  x ≤ coreX n && coreX n < x + 2 ^ fld d 13 11 && y ≤ coreY n && coreY n < y + 2 ^ fld d 16 14

/-- The arrival at a record: NEED, ARR, BAL, the test of R296 (R297), and the wakes of a write. -/
def State.arrive (s : State) (p : Part) (need expect : Nat) : State :=
  let w := s.view p.pa 8
  let bal := s.view (p.pa + 8) 8
  let w1 := bits w 15 0 + need % 2 ^ 16 * 2 ^ 16 + (bits w 47 32 + 1) % 2 ^ 16 * 2 ^ 32 + bits w 63 48 * 2 ^ 48
  let g : Seg := ⟨p.pa, p.va, toLE 8 w1 ++ toLE 8 (bal + 2 ^ 64 - expect)⟩
  (((s.beforeWrite [(p.pa, 16)]).store (s.clip g)).barrierStep p.pa).noteWrite s.myVf [g]

def execBara (g : BitVec 4) (d a b : BitVec 6) (s : State) : Out :=
  run (.bara g d a b) g .scalar s (fun t =>
    let c := t.core t.cur.core
    let desc := t.getS b
    let va := t.getS a
    let e := (t.getS d).toNat
    if !subHoopOk c desc || !inSubHoop c t.cur.core desc then .trap t 0x0B 0
    else if va.toNat % 16 ≠ 0 then .trap t 0x04 va
    else if e ≥ 2 ^ 47 then .trap t 0x07 0
    else t.reachRecord (.bara g d a b) accRW.global va 0x12 (fun u p =>
      match u.protectedIn [p] with
      | some x => .trap u 0x03 (BitVec.ofNat 64 x)
      | none =>
        u.device (.bara g d a b) (partLines [p]) (fun _ =>
          let v := u.performAll u.cur.core u.cur.ctx
          match v.partsPoison v.cur.core v.cur.ctx [p] with
          | some x => .trap v 0x3B (BitVec.ofNat 64 x)
          | none =>
            let need := 2 ^ (fld desc 13 11 + fld desc 16 14) * hoopN c
            .done ((v.arrive p need e).setS d (BitVec.ofNat 64 (bits (v.view p.pa 8) 63 48))))))

/-- BARW (R298): the test of the phase comes before the I-class conditions (R35, R282). -/
def execBarw (g : BitVec 4) (a b : BitVec 6) (s : State) : Out :=
  run (.barw g a b) g .scalar s (fun t =>
    let va := t.getS a
    if va.toNat % 16 ≠ 0 then .trap t 0x04 va
    else t.reachRecord (.barw g a b) accR.global va 0x03 (fun u p =>
      u.readParts [p] (fun w v =>
        if bits v 63 48 = fld (t.getS b) 15 0 then .wait u 0x03 []
        else u.device (.barw g a b) (partLines [p]) (fun _ => .done (w.acquire w.cur.core 4)))))

/-! Neighbours (R86, R87). -/

/-- The neighbouring core in a direction, inside the hoop of core n (R86). -/
def neighbour (c : Core) (n : Nat) (dir : BitVec 2) : Option Nat :=
  let x := coreX n
  let y := coreY n
  let inside (u v : Nat) : Option Nat :=
    if hoopOx c ≤ u && u < hoopOx c + hoopW c && hoopOy c ≤ v && v < hoopOy c + hoopH c then some (coreAt u v) else none
  match dir.toNat with
  | 0 => if y = 0 then none else inside x (y - 1)
  | 1 => inside (x + 1) y
  | 2 => inside x (y + 1)
  | _ => if x = 0 then none else inside (x - 1) y

/-- A presence bit is reserved by a neighbour write under way (R85). -/
def State.reservedBit (s : State) (n k bit : Nat) : Bool :=
  (s.ctx n k).nputs.any (fun p => p.bit == bit && p.ws == s.wsOf n k)

/-- Bytes of a register of the issuing context. -/
def State.regBytes (s : State) (r : Reg) : List Byte :=
  match r with
  | .s 0 => toLE 8 0
  | r => Memory.readBytes s.mem (s.ws + r.span.1) r.span.2

def execNput (g : BitVec 4) (tr a : BitVec 6) (dir : BitVec 2) (k : BitVec 4) (v : BitVec 1) (s : State) : Out :=
  run (.nput g tr a dir k v) g .scalar s (fun t =>
    match neighbour (t.core t.cur.core) t.cur.core dir with
    | none => .trap t 0x0C 0
    | some n =>
      if k.toNat ≥ hoopN (t.core t.cur.core) then .trap t 0x0C 0
      else
        let bit := if v = 1 then 64 + tr.toNat % 32 else tr.toNat
        if t.presence (t.wsOf n k.toNat) bit || t.reservedBit n k.toNat bit then .wait t 0x02 []
        else t.device (.nput g tr a dir k v) [] (fun _ =>
          let bytes := t.regBytes (if v = 1 then .v (a.extractLsb' 0 5) else .s a)
          let u := t.performAll t.cur.core t.cur.ctx
          .done (u.modCtx n k.toNat (fun x => { x with nputs := x.nputs ++
            [⟨bit, u.wsOf n k.toNat, bytes, u.scopeHere (scopeOf 1 u.cur.core n)⟩] }))))

/-- Offset of the register that presence bit `bit` stands for (R80). -/
def bitOffset (bit : Nat) : Nat := if bit < 64 then 8 * bit else 0x200 + 0x80 * (bit - 64)

/-- The key of a presence bit of a workspace among those that an NPUT set. -/
def presenceKey (ws bit : Nat) : Nat := 8 * (ws + 0x1228 + bit / 8) + bit % 8

/-- The oldest neighbour write of a context lands at its boundary: register and presence bit as one update (R86); a
context PARKED on the bit is re-inserted (R43). -/
def State.landNput (s : State) (n k : Nat) : State :=
  match (s.ctx n k).nputs with
  | [] => s
  | p :: rest =>
    let s1 := (s.modCtx n k (fun x => { x with nputs := rest })).store [(p.ws + bitOffset p.bit, p.bytes)]
    let s2 := (s1.setPresence p.ws p.bit true).modQuad (quadOf n) (fun q =>
      { q with given := mapSet q.given (presenceKey p.ws p.bit) p.scope })
    if (s.ctx n k).park = .nb p.bit && p.ws = s.wsOf n k then s2.reinsert n k else s2

def execNputLanding (n k : Nat) (s : State) : Out := .next (s.landNput n k)

/-- NTAKE (R87): an acquire at the scope of the NPUT that set the bit; of a bit that a store set, none. -/
def execNtake (g : BitVec 4) (tr a : BitVec 6) (v : BitVec 1) (s : State) : Out :=
  run (.ntake g tr a v) g .scalar s (fun t =>
    let bit := if v = 1 then 64 + a.toNat % 32 else a.toNat
    if !t.presence t.ws bit then .wait t 0x01 []
    else
      let u := if v = 1 then
          let x : BitVec 5 := a.extractLsb' 0 5
          t.setV (tr.extractLsb' 0 5) 0xFFFFFFFF (fun j => t.getV x j)
        else t.setS tr (t.getS a)
      let w := (u.setPresence u.ws bit false).modQuad u.q (fun q => { q with given := mapErase q.given (presenceKey u.ws bit) })
      .done (match mapGet (u.quad u.q).given (presenceKey u.ws bit) with
        | some sc => w.acquire w.cur.core (w.scopeHere sc)
        | none => w))

end Sys2Proof.Machine
end

