-- ==== Sys2Proof/Machine/Copies.lean ====
section
/-!
DEFINITION. Copies (R288 to R295): the instructions that start and ask after them, their bytes, faults, promises and
adds. The bytes of a copy move in one step, at the first of its events (log 6).
-/

namespace Sys2Proof.Machine

/-! Starting a copy. -/

/-- A copy shadow register set (R288, R289). -/
def Shadow.set (x : Shadow) (r : Nat) (v : W64) : Shadow :=
  match r with
  | 0 => { x with src := v }
  | 1 => { x with dst := v }
  | 2 => { x with bytes := v }
  | 3 => { x with rows := v }
  | 4 => { x with srcStride := v }
  | 5 => { x with dstStride := v }
  | 6 => { x with counter := v }
  | _ => { x with mode := v }

def execCpset (g : BitVec 4) (a : BitVec 6) (r : BitVec 3) (s : State) : Out :=
  run (.cpset g a r) g .scalar s (fun t =>
    .done (t.modCx (fun x => { x with shadow := x.shadow.set r.toNat (t.getS a) })))

/-- The checks of a copy's registers (R288, R290): the cause and TVAL of the first that fails. -/
def Shadow.fault (x : Shadow) : Option (BitVec 6 × W64) :=
  if fld x.src 63 56 ≠ 0 || fld x.dst 63 56 ≠ 0 || fld x.bytes 63 32 ≠ 0 || x.rows.toNat > 65536 || fld x.mode 63 2 ≠ 0 then
    some (0x07, 0)
  else if x.counter.toNat % 8 ≠ 0 then some (0x04, x.counter)
  else if x.bytes.toNat * x.rows.toNat > 2 ^ 40 then some (0x07, 0)
  else none

/-- The lowest free copy slot of a core. -/
def Core.freeCopy (c : Core) : Option Nat := (fromTo 0 32).find? (fun k => (mapGet c.copies k).isNone)

/-- The transfer id (R293). -/
def copyId (serial n slot : Nat) : Nat := serial % 2 ^ 16 * 2 ^ 16 + n * 2 ^ 5 + slot % 32

/-- Starts a copy of the issuing context in a slot (R290): earlier stores are performed (R292), S[d] receives the id
and S[d+1] the promise, a free value (R293; log 13). -/
def State.startCopy (s : State) (d : BitVec 6) (slot : Nat) (x : Shadow) : State :=
  let n := s.cur.core
  let k := s.cur.ctx
  let u := (s.performFirst n k (s.ctx n k).stores.length).settlePosts n k (fun _ => true)
  let ser := ((u.core n).serial + 1) % 2 ^ 16
  let dr := u.draw
  let promise := u.tstamp (tileOf n) + Config.promiseDelay dr.1
  let o := dr.2.nextOrder
  let c : Copy :=
    { ctx := k, live := true, hoop := u.myHoop, vf := u.myVf, tag := u.myTag, serial := ser, regs := x,
      promise := promise, moved := false, done := 0, faulted := false, missing := [], recorded := false,
      added := false, late := false, order := o.1 }
  let v := o.2.modCore n (fun y => { y with serial := ser, copies := mapSet y.copies slot c })
  (v.setS d (BitVec.ofNat 64 (copyId ser n slot))).setS (d + 1) promise

def execCpgo (g : BitVec 4) (d : BitVec 6) (s : State) : Out :=
  run (.cpgo g d) g .scalar s (fun t =>
    let x := t.cx.shadow
    match x.fault with
    | some (c, v) => .trap t c v
    | none =>
      match (t.core t.cur.core).freeCopy with
      | none => .wait t 0x0E []
      | some slot => t.device (.cpgo g d) [] (fun _ => .done (t.startCopy d slot x)))

/-- The registers of a parameter block (R291), read as one number, and its reserved word. -/
def blockShadow (v : Nat) : Shadow × Nat :=
  let w (off n : Nat) : W64 := BitVec.ofNat 64 (v / 256 ^ off % 256 ^ n)
  (⟨w 0 8, w 8 8, w 16 4, w 20 4, w 24 8, w 32 8, w 40 8, w 48 8⟩, v / 256 ^ 56 % 256 ^ 8)

/-- The transfer unit's cache holds the block of a line (R280). -/
def State.keepBlock (s : State) (runs : List (Nat × Nat)) : State :=
  (linesOf runs).foldl (fun t l => t.modTile (tileOf t.cur.core) (fun x =>
    if x.blocks.contains l || !(isHbm (64 * l) || isHost (64 * l)) then x else { x with blocks := l :: x.blocks })) s

def execCppb (g : BitVec 4) (d a : BitVec 6) (s : State) : Out :=
  run (.cppb g d a) g .scalar s (fun t =>
    let va := t.getS a
    if va.toNat % 64 ≠ 0 then .trap t 0x07 va
    else t.reach (.cppb g d a) accR [(va.toNat, 64)] 0x12 (fun u ps =>
      match (u.core u.cur.core).freeCopy with
      | none => .wait u 0x0E []
      | some slot => u.deviceAt (.cppb g d a) (ps.map (fun p => (p.pa, p.len))) 0 (fun _ =>
        u.readParts ps (fun w0 v =>
          let w := w0.keepBlock (ps.map (fun p => (p.pa, p.len)))
          let b := blockShadow v
          if b.2 ≠ 0 then .trap u 0x07 0
          else match b.1.fault with
            | some (c, x) => .trap u c x
            | none => .done (w.startCopy d slot b.1)))))

/-- CPQ (R295). -/
def State.copyStatus (s : State) (n : Nat) (id : W64) : W64 :=
  match (s.core n).copies.find? (fun c => c.1 < 32 && BitVec.ofNat 64 (copyId c.2.serial n c.1) == id) with
  | some (_, c) =>
    BitVec.ofNat 64 (2 ^ 63 + (if c.recorded then 2 ^ 62 else 0) +
      (if c.promise.toNat < (s.tstamp (tileOf n)).toNat then 2 ^ 61 else 0) + c.done % 2 ^ 40)
  | none => 0

def execCpq (g : BitVec 4) (d a : BitVec 6) (s : State) : Out :=
  scalarOp (.cpq g d a) g d (fun t => t.copyStatus t.cur.core (t.getS a)) s

/-! The bytes of a copy (R292, R294). -/

/-- Adds the sectors of a page that hold n bytes from va on to what is missing. -/
def addMissing (l : List Missing) (va n : Nat) (cause : BitVec 6) : List Missing :=
  let page := va / 4096 * 4096
  let lo := va % 4096 / 64
  let hi := (va % 4096 + n - 1) / 64
  let m := 2 ^ (hi + 1) - 2 ^ lo
  if l.any (fun x => x.page == page && x.cause == cause) then
    l.map (fun x => if x.page = page && x.cause = cause then { x with sect := x.sect ||| m } else x)
  else l ++ [⟨page, cause, m⟩]

/-- One piece of a copy as its engine reaches it: where it lies, or the cause (R203, R276). -/
def State.enginePlace (s : State) (w : Who) (a : Acc) (va : Nat) : State × (Nat ⊕ BitVec 6) :=
  match s.place w a va with
  | (u, .at pa _ tr) => (u, if tr then .inr 0x1B else .inl pa)
  | (u, .bad c) => (u, .inr c)

/-- The requests of an engine for some runs that meet a retry, or a line that its home defers (R40, R264, R398): line and
event. -/
def State.engineBusy (s : State) (t : Nat) (runs : List (Nat × Nat)) (ev : Nat) : List (Nat × Nat) :=
  ((s.asked t runs ev).filter (fun l => s.askBusy t [(64 * l, 64)] ev)).map (fun l => (l, ev))
/-- An engine makes such requests again at their homes; its access stays unperformed (R398). -/
def State.engineAgain (s : State) (t : Nat) (l : List (Nat × Nat)) : State :=
  l.foldl (fun u x => u.askAgain [x.1] x.2 (some t)) s

/-- An engine's reads pass through its tile's slice (R199). -/
def State.engineRead (s : State) (t vf : Nat) (runs : List (Nat × Nat)) : State :=
  (linesOf runs).foldl (fun u l => if isHbm (64 * l) || isHost (64 * l) then u.fillL2 t vf l false else u) s

/-- The source pieces of one sector: places, what is missing of their pages, and requests that meet a retry; poison is
cause 0x3B (R204). -/
def State.sourcePieces (s : State) (w : Who) (miss : List Missing) : List (Nat × Nat) →
    State × List (Nat × Nat) × List Missing × List (Nat × Nat)
  | [] => (s, [], miss, [])
  | (va, n) :: rest =>
    match s.enginePlace w accR.global va with
    | (u, .inr c) => u.sourcePieces w (addMissing miss va n c) rest
    | (u0, .inl pa) =>
      let t := tileOf w.core
      let u := u0.engineRead t w.vf [(pa, n)]
      let bad := (fromTo pa n).any (fun x => u.poisoned x)
      let r := u.sourcePieces w (if bad then addMissing miss va n 0x3B else miss) rest
      (r.1, if bad then r.2.1 else (pa, n) :: r.2.1, r.2.2.1, u0.engineBusy t [(pa, n)] 0 ++ r.2.2.2)

/-- What a copy has done so far. -/
structure Moving where
  st      : State
  missing : List Missing
  done    : Nat
  busy    : List (Nat × Nat)      -- requests that meet a retry: line and event

/-- One sector, or the part of it that the copy covers. -/
def Moving.sector (m : Moving) (w : Who) (src dst n : Nat) : Moving :=
  let r := m.st.sourcePieces w m.missing (splitPages src n)
  let d := r.1.enginePlace w accW.global dst
  let whole := (r.2.1.map (fun p => p.2)).sum = n
  let miss := r.2.2.1
  let busy := m.busy ++ r.2.2.2
  match d.2 with
  | .inr c => { m with st := d.1, missing := addMissing miss dst n c, busy := busy }
  | .inl pa =>
    let asks := busy ++ d.1.engineBusy (tileOf w.core) [(pa, n)] 2
    if !whole then { m with st := d.1, missing := miss, busy := busy }
    else if d.1.refuses pa 2 then
      { m with st := d.1.serveRuns [(pa, n)] 2 (some (tileOf w.core)), missing := addMissing miss dst n 0x19, busy := asks }
    else
      let bytes := r.2.1.flatMap (fun p => (fromTo p.1 p.2).map d.1.look)
      let guarded := (fromTo pa n).any (fun x => d.1.isProtected x)
      let segs : List Seg :=
        if guarded then
          ((fromTo 0 n).zip bytes).filterMap (fun x =>
            if d.1.isProtected (pa + x.1) then none else some ⟨pa + x.1, dst + x.1, [x.2]⟩)
        else [⟨pa, dst, bytes⟩]
      { st := d.1.performSegs (tileOf w.core) w.vf segs,
        missing := if guarded then addMissing miss dst n 0x03 else miss,
        done := m.done + (segs.map (fun x => x.bytes.length)).sum, busy := asks }

/-- The sectors of `left` bytes, one after the other; `fuel` bounds their number. -/
def Moving.row (w : Who) : Nat → Nat → Nat → Nat → Moving → Moving
  | 0, _, _, _, m => m
  | fuel + 1, src, dst, left, m =>
    if left = 0 then m
    else
      let n := min left (64 - dst % 64)
      Moving.row w fuel ((src + n) % 2 ^ 64) ((dst + n) % 2 ^ 64) (left - n) (m.sector w src dst n)

/-- The rows from a source and a destination on. -/
def Moving.rows (w : Who) (x : Shadow) : Nat → W64 → W64 → Moving → Moving
  | 0, _, _, m => m
  | left + 1, src, dst, m =>
    Moving.rows w x left (src + x.srcStride) (dst + x.dstStride)
      (m.row w (x.bytes.toNat / 64 + 2) src.toNat dst.toNat x.bytes.toNat)

def State.setCopy (s : State) (n slot : Nat) (c : Copy) : State :=
  s.modCore n (fun x => { x with copies := mapSet x.copies slot c })
def State.freeCopy (s : State) (n slot : Nat) : State :=
  s.modCore n (fun x => { x with copies := mapErase x.copies slot })
def State.copyAt (s : State) (n slot : Nat) : Option Copy := mapGet (s.core n).copies slot

/-- The bytes of a copy on their way (R292). -/
def State.copyMoving (s : State) (n : Nat) (c : Copy) : Moving :=
  Moving.rows (engineOf n c.vf) c.regs c.regs.rows.toNat c.regs.src c.regs.dst ⟨s, [], 0, []⟩

/-- The requests of a copy's bytes that meet a retry. -/
def State.copyBusy (s : State) (n slot : Nat) : List (Nat × Nat) :=
  match s.copyAt n slot with
  | some c => if c.moved then [] else (s.copyMoving n c).busy
  | none => []

/-- Moves the bytes of a copy, once. -/
def State.moveCopy (s : State) (n slot : Nat) : State :=
  match s.copyAt n slot with
  | some c =>
    if c.moved then s
    else
      let m := s.copyMoving n c
      m.st.setCopy n slot { c with moved := true, done := m.done, missing := m.missing, faulted := !m.missing.isEmpty }
  | none => s

/-- A fault record of a copy (R294, R325). -/
def State.copyRecord (s : State) (n slot : Nat) (c : Copy) (cause : BitVec 6) (va sect : Nat) : State :=
  s.faultRecord c.vf cause va sect c.tag (srcCopy (copyId c.serial n slot)) 0 0

/-- Writes the record of the first faulting page not yet recorded. -/
def State.recordMissing (s : State) (n slot : Nat) : State :=
  match s.copyAt n slot with
  | some c =>
    match c.missing with
    | m :: rest =>
      (s.setCopy n slot { c with missing := rest, recorded := true }).copyRecord n slot c m.cause m.page m.sect
    | [] => s
  | none => s

/-- Writes the records of `k` faulting pages. -/
def State.recordAll (s : State) (n slot : Nat) : Nat → State
  | 0 => s
  | k + 1 => (s.recordMissing n slot).recordAll n slot k

/-! The events of a copy. -/

/-- A copy whose add is performed and whose records are written is gone. -/
def State.dropDone (s : State) (n slot : Nat) : State :=
  match s.copyAt n slot with
  | some c => if c.added && c.missing.isEmpty then s.freeCopy n slot else s
  | none => s

def execCopySectorFault (n slot : Nat) (s : State) : Out :=
  .next (if (s.copyBusy n slot).isEmpty then ((s.moveCopy n slot).recordMissing n slot).dropDone n slot
    else s.engineAgain (tileOf n) (s.copyBusy n slot))

/-- Where the counter of a copy lies, with no test of rights. -/
def State.counterPa (s : State) (n : Nat) (c : Copy) : Option Nat :=
  match (s.place (engineOf n c.vf) accAttr c.regs.counter.toNat).2 with
  | .at pa _ _ => some pa
  | .bad _ => none
/-- Two copies add to one counter, under one address or under two that lead to one place. -/
def State.oneCounter (s : State) (n : Nat) (x y : Copy) : Bool :=
  x.regs.counter == y.regs.counter || ((s.counterPa n x).isSome && s.counterPa n x == s.counterPa n y)

/-- Adds of one context to one counter keep the order of CPGO and CPPB (R292). -/
def State.copyTurn (s : State) (n : Nat) (c : Copy) : Bool :=
  (s.core n).copies.all (fun x =>
    !(!x.2.added && x.2.ctx == c.ctx && x.2.hoop == c.hoop && x.2.regs.counter != 0 && s.oneCounter n x.2 c) ||
      c.order ≤ x.2.order)

/-- The request of an engine's counter add, where it meets a retry. -/
def State.addBusy (s : State) (w : Who) (va : Nat) : List (Nat × Nat) :=
  match (s.enginePlace w accRW.global va).2 with
  | .inl pa => s.engineBusy (tileOf w.core) [(pa, 8)] 3
  | .inr _ => []

/-- The add of a copy: bytes, or 1 when no sector faulted (R292); a fault on the counter is recorded (R294). -/
def State.copyAdd (s : State) (n slot : Nat) (c : Copy) : State :=
  let va := c.regs.counter.toNat
  let amount := if c.regs.mode.getLsbD 0 then (if c.faulted then 0 else 1) else c.done
  match s.enginePlace (engineOf n c.vf) accRW.global va with
  | (u, .inr cause) => u.copyRecord n slot c cause va 0
  | (u, .inl pa) =>
    if (fromTo pa 8).any (fun x => u.isProtected x) then u.copyRecord n slot c 0x03 va 0
    else if u.poisoned pa then u.copyRecord n slot c 0x3B va 0
    else
      let r := u.counterAdd (tileOf n) c.vf pa va amount
      if r.2 then r.1 else r.1.copyRecord n slot c 0x19 va 0

/-- TSTAMP has passed a copy's promise (R293): cause 0x20, unless the copy faulted (R294). -/
def State.promiseTest (s : State) (n slot : Nat) : State :=
  match s.copyAt n slot with
  | some c =>
    if c.late || (s.tstamp (tileOf n)).toNat ≤ c.promise.toNat then s
    else
      let u := s.moveCopy n slot
      match u.copyAt n slot with
      | some d =>
        let v := u.setCopy n slot { d with late := true }
        if d.faulted then v
        else v.pendSender n d.ctx d.hoop d.vf d.tag (!d.live) 0x20 (BitVec.ofNat 64 (copyId d.serial n slot))
      | none => u
  | none => s

def execMissedPromise (n slot : Nat) (s : State) : Out := .next (s.promiseTest n slot)

/-- The slot of a copy is free (R292): the copy is gone, or, where records of its faulting pages are still to be written,
goes on outside the 32 slots (R348; log 13). -/
def State.leaveSlot (s : State) (n slot : Nat) : State :=
  match s.copyAt n slot with
  | some c =>
    let t := s.freeCopy n slot
    if c.missing.isEmpty then t else t.setCopy n (32 * (c.order + 1) + slot) { c with added := true }
  | none => s

/-- A copy's last step (R292): its bytes are written, a missed promise is told (R293), its add is made, its slot is free.
The records of its faulting pages come before or after (R348). -/
def State.closeCopy (s : State) (n slot : Nat) : State :=
  let u := (s.moveCopy n slot).promiseTest n slot
  match u.copyAt n slot with
  | some d => (if d.regs.counter = 0 then u else u.copyAdd n slot d).leaveSlot n slot
  | none => u

def execCopyCounterAdd (n slot : Nat) (s : State) : Out :=
  match s.copyAt n slot with
  | some c =>
    let busy := s.copyBusy n slot ++ s.addBusy (engineOf n c.vf) c.regs.counter.toNat
    if c.regs.counter = 0 || c.added || !s.copyTurn n c then .next s
    else .next (if busy.isEmpty then s.closeCopy n slot else s.engineAgain (tileOf n) busy)
  | none => .next s

def execCopyLastBytePerformed (n slot : Nat) (s : State) : Out :=
  match s.copyAt n slot with
  | some c =>
    if c.regs.counter = 0 && !c.added then
      .next (if (s.copyBusy n slot).isEmpty then s.closeCopy n slot else s.engineAgain (tileOf n) (s.copyBusy n slot))
    else .next s
  | none => .next s

end Sys2Proof.Machine
end

