-- ==== Sys2Proof/Machine/VectorInt.lean ====
section
/-!
DEFINITION. Vector integer instructions, lane moves and reductions (R144 to R149).
-/

namespace Sys2Proof.Machine

/-- An exact integer result in a lane: clamped to the signed range under MOD.SAT, else modulo 2^32 (R144). -/
def clamp32 (sat : Bool) (x : Int) : W32 :=
  if sat then BitVec.ofInt 32 (max (-(2 ^ 31)) (min x (2 ^ 31 - 1))) else BitVec.ofInt 32 x

/-- A two-source lane operation. -/
def vectorOp2 (i : Instr) (g : BitVec 4) (d a b : BitVec 5) (f : W32 → W32 → W32) (s : State) : Out :=
  vectorOp i g d (fun t j => f (t.getV a j) (t.getV b j)) s

def execVadd (g : BitVec 4) (d a b : BitVec 5) (s : State) : Out :=
  vectorOp (.vadd g d a b) g d (fun t j => clamp32 t.sat ((t.getV a j).toInt + (t.getV b j).toInt)) s
def execVsub (g : BitVec 4) (d a b : BitVec 5) (s : State) : Out :=
  vectorOp (.vsub g d a b) g d (fun t j => clamp32 t.sat ((t.getV a j).toInt - (t.getV b j).toInt)) s
def execVmul (g : BitVec 4) (d a b : BitVec 5) (s : State) : Out :=
  vectorOp (.vmul g d a b) g d (fun t j => clamp32 t.sat ((t.getV a j).toInt * (t.getV b j).toInt)) s
def execVmad (g : BitVec 4) (d a b : BitVec 5) (s : State) : Out :=
  vectorOp (.vmad g d a b) g d
    (fun t j => clamp32 t.sat ((t.getV a j).toInt * (t.getV b j).toInt + (t.getV d j).toInt)) s
def execVand (g : BitVec 4) (d a b : BitVec 5) (s : State) : Out :=
  vectorOp2 (.vand g d a b) g d a b (fun x y => x &&& y) s
def execVor (g : BitVec 4) (d a b : BitVec 5) (s : State) : Out :=
  vectorOp2 (.vor g d a b) g d a b (fun x y => x ||| y) s
def execVxor (g : BitVec 4) (d a b : BitVec 5) (s : State) : Out :=
  vectorOp2 (.vxor g d a b) g d a b (fun x y => x ^^^ y) s

/-- The shift amount y[4:0]. -/
def shamt32 (y : W32) : Nat := y.toNat % 32

def execVshl (g : BitVec 4) (d a b : BitVec 5) (s : State) : Out :=
  vectorOp2 (.vshl g d a b) g d a b (fun x y => x <<< shamt32 y) s
def execVshr (g : BitVec 4) (d a b : BitVec 5) (s : State) : Out :=
  vectorOp2 (.vshr g d a b) g d a b (fun x y => x >>> shamt32 y) s
def execVsar (g : BitVec 4) (d a b : BitVec 5) (s : State) : Out :=
  vectorOp2 (.vsar g d a b) g d a b (fun x y => x.sshiftRight (shamt32 y)) s
def execVrot (g : BitVec 4) (d a b : BitVec 5) (s : State) : Out :=
  vectorOp2 (.vrot g d a b) g d a b (fun x y => x.rotateLeft (shamt32 y)) s

/-- Smaller and larger, signed or unsigned. -/
def minLane (u : Bool) (x y : W32) : W32 := if u then (if x.ule y then x else y) else if x.sle y then x else y
def maxLane (u : Bool) (x y : W32) : W32 := if u then (if y.ule x then x else y) else if y.sle x then x else y

def execVmin (g : BitVec 4) (d a b : BitVec 5) (u : BitVec 1) (s : State) : Out :=
  vectorOp2 (.vmin g d a b u) g d a b (minLane (u == 1)) s
def execVmax (g : BitVec 4) (d a b : BitVec 5) (u : BitVec 1) (s : State) : Out :=
  vectorOp2 (.vmax g d a b u) g d a b (maxLane (u == 1)) s
def execVabs (g : BitVec 4) (d a : BitVec 5) (s : State) : Out :=
  vectorOp (.vabs g d a) g d (fun t j => if (t.getV a j).msb then -(t.getV a j) else t.getV a j) s

/-- VSEL writes every lane, whatever the guard selects (R145). -/
def execVsel (g : BitVec 4) (d a b : BitVec 5) (s : State) : Out :=
  run (.vsel g d a b) g .own s (fun t =>
    .done (t.setV d 0xFFFFFFFF (fun j => if (t.guard g).getLsbD j then t.getV a j else t.getV b j)))
def execVshuf (g : BitVec 4) (d a b : BitVec 5) (s : State) : Out :=
  vectorOp (.vshuf g d a b) g d (fun t j => t.getV a ((t.getV b j).toNat % 32)) s
def execVcmp (g : BitVec 4) (p : BitVec 3) (a b : BitVec 5) (c : BitVec 4) (s : State) : Out :=
  run (.vcmp g p a b c) g .lanes s (fun t =>
    .done (t.setPMask p (t.guard g) (fun j => ccBits 32 c.toNat (t.getV a j) (t.getV b j))))
def execVbcast (g : BitVec 4) (r : BitVec 6) (v : BitVec 5) (s : State) : Out :=
  vectorOp (.vbcast g r v) g v (fun t _ => (t.getS r).extractLsb' 0 32) s
def execVlane (g : BitVec 4) (v : BitVec 5) (s : State) : Out :=
  vectorOp (.vlane g v) g v (fun _ j => BitVec.ofNat 32 j) s

/-! Reductions (R137, R148). -/

/-- One level of the tree: an absent input passes the other through. -/
def pairUp {α : Type} (f : α → α → α) : List (Option α) → List (Option α)
  | some x :: some y :: t => some (f x y) :: pairUp f t
  | some x :: none :: t => some x :: pairUp f t
  | none :: y :: t => y :: pairUp f t
  | l => l
/-- The five levels over 32 lanes. -/
def treeOf {α : Type} (f : α → α → α) (l : List (Option α)) : Option α :=
  match pairUp f (pairUp f (pairUp f (pairUp f (pairUp f l)))) with
  | x :: _ => x
  | [] => none
/-- The lanes of V[v] that take part. -/
def State.present (s : State) (g : BitVec 4) (v : BitVec 5) : List (Option W32) :=
  (fromTo 0 32).map (fun j => if (s.guard g).getLsbD j then some (s.getV v j) else none)

/-- S[d] ← the reduction, extended as its type says (R148). -/
def vredOp (i : Instr) (g : BitVec 4) (d : BitVec 6) (v : BitVec 5) (u : Bool) (ident : W32) (f : W32 → W32 → W32)
    (s : State) : Out :=
  run i g .own s (fun t =>
    let r := (treeOf f (t.present g v)).getD ident
    .done (t.setS d (if u then r.zeroExtend 64 else r.signExtend 64)))

def execVredAdd (g : BitVec 4) (d : BitVec 6) (v : BitVec 5) (s : State) : Out :=
  vredOp (.vredAdd g d v) g d v false 0 (fun x y => x + y) s
def execVredAnd (g : BitVec 4) (d : BitVec 6) (v : BitVec 5) (s : State) : Out :=
  vredOp (.vredAnd g d v) g d v false 0xFFFFFFFF (fun x y => x &&& y) s
def execVredOr (g : BitVec 4) (d : BitVec 6) (v : BitVec 5) (s : State) : Out :=
  vredOp (.vredOr g d v) g d v false 0 (fun x y => x ||| y) s
def execVredXor (g : BitVec 4) (d : BitVec 6) (v : BitVec 5) (s : State) : Out :=
  vredOp (.vredXor g d v) g d v false 0 (fun x y => x ^^^ y) s
def execVredMin (g : BitVec 4) (d : BitVec 6) (v : BitVec 5) (u : BitVec 1) (s : State) : Out :=
  vredOp (.vredMin g d v u) g d v (u == 1) (if u = 1 then 0xFFFFFFFF else 0x7FFFFFFF) (minLane (u == 1)) s
def execVredMax (g : BitVec 4) (d : BitVec 6) (v : BitVec 5) (u : BitVec 1) (s : State) : Out :=
  vredOp (.vredMax g d v u) g d v (u == 1) (if u = 1 then 0 else 0x80000000) (maxLane (u == 1)) s

end Sys2Proof.Machine
end

