-- ==== Sys2Proof/Machine/FloatOps.lean ====
section
/-!
DEFINITION. Vector and scalar float instructions and conversions (R149 to R160).
-/

namespace Sys2Proof.Machine

/-- The mode of a rounding to FP32: 5 is read as nearest-even (R91). -/
def State.rmF (s : State) : Nat := if s.rm = 5 then 1 else s.rm

/-- A float reduction (R149): the flags of every node. -/
def vfredOp (i : Instr) (g : BitVec 4) (d : BitVec 6) (v : BitVec 5) (ident : W32) (f : State → W32 → W32 → W32 × Nat)
    (s : State) : Out :=
  run i g .own s (fun t =>
    let node (x y : W32 × Nat) : W32 × Nat :=
      let r := f t x.1 y.1
      (r.1, r.2 ||| x.2 ||| y.2)
    let r := (treeOf node ((t.present g v).map (fun o => o.map (fun x => (x, 0))))).getD (ident, 0)
    .done ((t.setS d (r.1.zeroExtend 64)).addFx r.2))

def execVfredAdd (g : BitVec 4) (d : BitVec 6) (v : BitVec 5) (s : State) : Out :=
  vfredOp (.vfredAdd g d v) g d v 0 (fun t x y => fAdd t.rmF x y) s
def execVfredMin (g : BitVec 4) (d : BitVec 6) (v : BitVec 5) (s : State) : Out :=
  vfredOp (.vfredMin g d v) g d v 0x7F800000 (fun _ x y => fMinMax false x y) s
def execVfredMax (g : BitVec 4) (d : BitVec 6) (v : BitVec 5) (s : State) : Out :=
  vfredOp (.vfredMax g d v) g d v 0xFF800000 (fun _ x y => fMinMax true x y) s

/-! Major 0x16 (R150 to R153). -/

/-- A two-source float lane operation. -/
def vectorFloat2 (i : Instr) (g : BitVec 4) (d a b : BitVec 5) (f : State → W32 → W32 → W32 × Nat) (s : State) : Out :=
  vectorFloat i g d (fun t j => f t (t.getV a j) (t.getV b j)) s

def execVfadd (g : BitVec 4) (d a b : BitVec 5) (s : State) : Out :=
  vectorFloat2 (.vfadd g d a b) g d a b (fun t x y => fAdd t.rmF x y) s
def execVfsub (g : BitVec 4) (d a b : BitVec 5) (s : State) : Out :=
  vectorFloat2 (.vfsub g d a b) g d a b (fun t x y => fSub t.rmF x y) s
def execVfmul (g : BitVec 4) (d a b : BitVec 5) (s : State) : Out :=
  vectorFloat2 (.vfmul g d a b) g d a b (fun t x y => fMul t.rmF x y) s
def execVfma (g : BitVec 4) (d a b : BitVec 5) (s : State) : Out :=
  vectorFloat (.vfma g d a b) g d (fun t j => fFma t.rmF false false (t.getV a j) (t.getV b j) (t.getV d j)) s
def execVfms (g : BitVec 4) (d a b : BitVec 5) (s : State) : Out :=
  vectorFloat (.vfms g d a b) g d (fun t j => fFma t.rmF false true (t.getV a j) (t.getV b j) (t.getV d j)) s
def execVfnma (g : BitVec 4) (d a b : BitVec 5) (s : State) : Out :=
  vectorFloat (.vfnma g d a b) g d (fun t j => fFma t.rmF true false (t.getV a j) (t.getV b j) (t.getV d j)) s
def execVfmin (g : BitVec 4) (d a b : BitVec 5) (s : State) : Out :=
  vectorFloat2 (.vfmin g d a b) g d a b (fun _ x y => fMinMax false x y) s
def execVfmax (g : BitVec 4) (d a b : BitVec 5) (s : State) : Out :=
  vectorFloat2 (.vfmax g d a b) g d a b (fun _ x y => fMinMax true x y) s
def execVfabs (g : BitVec 4) (d a : BitVec 5) (s : State) : Out :=
  vectorOp (.vfabs g d a) g d (fun t j => fAbs (t.getV a j)) s
def execVfneg (g : BitVec 4) (d a : BitVec 5) (s : State) : Out :=
  vectorOp (.vfneg g d a) g d (fun t j => fNeg (t.getV a j)) s
def execVfrcp (g : BitVec 4) (d a : BitVec 5) (s : State) : Out :=
  vectorFloat (.vfrcp g d a) g d (fun t j => fRcp t.rmF (t.getV a j)) s
def execVfrsq (g : BitVec 4) (d a : BitVec 5) (s : State) : Out :=
  vectorFloat (.vfrsq g d a) g d (fun t j => fSqrt true t.rmF (t.getV a j)) s
def execVfsqrt (g : BitVec 4) (d a : BitVec 5) (s : State) : Out :=
  vectorFloat (.vfsqrt g d a) g d (fun t j => fSqrt false t.rmF (t.getV a j)) s
def execVfexp2 (g : BitVec 4) (d a : BitVec 5) (s : State) : Out :=
  vectorFloat (.vfexp2 g d a) g d (fun t j => fExp2 t.rmF (t.getV a j)) s
def execVflog2 (g : BitVec 4) (d a : BitVec 5) (s : State) : Out :=
  vectorFloat (.vflog2 g d a) g d (fun t j => fLog2 t.rmF (t.getV a j)) s
def execVfclass (g : BitVec 4) (d a : BitVec 5) (s : State) : Out :=
  vectorOp (.vfclass g d a) g d (fun t j => fClass (t.getV a j)) s
def execVfcmp (g : BitVec 4) (p : BitVec 3) (a b : BitVec 5) (c : BitVec 4) (s : State) : Out :=
  run (.vfcmp g p a b c) g .lanes s (fun t =>
    let r (j : Nat) : Bool × Nat := fCompare c.toNat (t.getV a j) (t.getV b j)
    .done ((t.setPMask p (t.guard g) (fun j => (r j).1)).addFx (laneFx (t.guard g) (fun j => (r j).2))))

/-! Major 0x17 (R154 to R156). -/

/-- Encodes a number per lane, drawing from the lanes' generators (R132): code and flags by lane, generators after. -/
def encodeLanes (f : BitVec 6) (rm : Nat) (sat : Bool) (x : Nat → Num) : List Nat → Map W32 → List (Nat × Nat × Nat) × Map W32
  | [], gens => ([], gens)
  | j :: js, gens =>
    let g := (mapGet gens j).getD 1
    let r := encodeElem f rm sat g (x j)
    let rest := encodeLanes f rm sat x js (if r.2.2 = g then gens else mapSet gens j r.2.2)
    ((j, r.1, r.2.1) :: rest.1, rest.2)

/-- The lanes of a mask. -/
def maskLanes (m : W32) : List Nat := (fromTo 0 32).filter (fun j => m.getLsbD j)
def State.setGens (s : State) (gens : Map W32) : State := s.modCore s.cur.core (fun c => { c with gens := gens })
/-- The generators the current context draws from (R132): those of its core. A handler on a service core, for which the
manual names none, draws from those of its AWAY context's compute core (DESIGN CHOICE, log 65). -/
def State.gens (s : State) : Map W32 := (s.core s.cur.core).gens
/-- The flags of encoded lanes. -/
def codesFx (l : List (Nat × Nat × Nat)) : Nat := l.foldl (fun acc x => acc ||| x.2.2) 0

def execVcvtF2x (g : BitVec 4) (d a : BitVec 5) (f : BitVec 6) (s : State) : Out :=
  run (.vcvtF2x g d a f) g .lanes s (fun t =>
    let r := encodeLanes f t.rm t.sat (fun j => num32 (t.getV a j)) (maskLanes (t.guard g)) t.gens
    .done (((t.setVAt t.ws d.toNat (r.1.map (fun x => (x.1, BitVec.ofNat 32 x.2.1)))).setGens r.2).addFx (codesFx r.1)))
def execVcvtX2f (g : BitVec 4) (d a : BitVec 5) (f : BitVec 6) (s : State) : Out :=
  vectorFloat (.vcvtX2f g d a f) g d (fun t j => decodeElem f ((t.getV a j).toNat % 256 ^ fmtBytes f)) s
def execVcvtF2i (g : BitVec 4) (d a : BitVec 5) (s : State) : Out :=
  vectorFloat (.vcvtF2i g d a) g d
    (fun t j => let r := fToInt true 32 t.rmF (t.getV a j); (BitVec.ofInt 32 r.1, r.2)) s
def execVcvtF2u (g : BitVec 4) (d a : BitVec 5) (s : State) : Out :=
  vectorFloat (.vcvtF2u g d a) g d
    (fun t j => let r := fToInt false 32 t.rmF (t.getV a j); (BitVec.ofInt 32 r.1, r.2)) s
def execVcvtI2f (g : BitVec 4) (d a : BitVec 5) (s : State) : Out :=
  vectorFloat (.vcvtI2f g d a) g d (fun t j => intToF t.rmF (t.getV a j).toInt) s
def execVcvtU2f (g : BitVec 4) (d a : BitVec 5) (s : State) : Out :=
  vectorFloat (.vcvtU2f g d a) g d (fun t j => intToF t.rmF (t.getV a j).toNat) s

/-- Offset in the workspace of element j of part p of V[v] (R155). -/
def packedOff (v : BitVec 5) (f : BitVec 6) (p : BitVec 2) (j : Nat) : Nat :=
  0x200 + 0x80 * v.toNat + 32 * fmtBytes f * p.toNat + j * fmtBytes f

def execVpack (g : BitVec 4) (d a : BitVec 5) (f : BitVec 6) (p : BitVec 2) (s : State) : Out :=
  run (.vpack g d a f p) g .lanes s (fun t =>
    let r := encodeLanes f t.rm t.sat (fun j => num32 (t.getV a j)) (maskLanes (t.guard g)) t.gens
    let u := t.store (r.1.map (fun x => (t.ws + packedOff d f p x.1, toLE (fmtBytes f) x.2.1)))
    .done ((u.setGens r.2).addFx (codesFx r.1)))
def execVunpk (g : BitVec 4) (d a : BitVec 5) (f : BitVec 6) (p : BitVec 2) (s : State) : Out :=
  vectorOp (.vunpk g d a f p) g d (fun t j => (decodeElem f (t.item (packedOff a f p j) (fmtBytes f))).1) s
def execVfrnd (g : BitVec 4) (d a : BitVec 5) (s : State) : Out :=
  vectorFloat (.vfrnd g d a) g d (fun t j => fRnd t.rm (t.getV a j)) s

/-! Majors 0x18 and 0x19 (R157 to R160). -/

/-- The FP32 value of a scalar source (R157). -/
def State.getF (s : State) (n : BitVec 6) : W32 := (s.getS n).extractLsb' 0 32

def execFadd (g : BitVec 4) (d a b : BitVec 6) (s : State) : Out :=
  scalarFloat (.fadd g d a b) g d (fun t => fAdd t.rmF (t.getF a) (t.getF b)) s
def execFsub (g : BitVec 4) (d a b : BitVec 6) (s : State) : Out :=
  scalarFloat (.fsub g d a b) g d (fun t => fSub t.rmF (t.getF a) (t.getF b)) s
def execFmul (g : BitVec 4) (d a b : BitVec 6) (s : State) : Out :=
  scalarFloat (.fmul g d a b) g d (fun t => fMul t.rmF (t.getF a) (t.getF b)) s
def execFfma (g : BitVec 4) (d a b : BitVec 6) (s : State) : Out :=
  scalarFloat (.ffma g d a b) g d (fun t => fFma t.rmF false false (t.getF a) (t.getF b) (t.getF d)) s
def execFmin (g : BitVec 4) (d a b : BitVec 6) (s : State) : Out :=
  scalarFloat (.fmin g d a b) g d (fun t => fMinMax false (t.getF a) (t.getF b)) s
def execFmax (g : BitVec 4) (d a b : BitVec 6) (s : State) : Out :=
  scalarFloat (.fmax g d a b) g d (fun t => fMinMax true (t.getF a) (t.getF b)) s

def execFcvtF2x (g : BitVec 4) (d a : BitVec 6) (f : BitVec 6) (s : State) : Out :=
  run (.fcvtF2x g d a f) g .scalar s (fun t =>
    let r := encodeLanes f t.rm t.sat (fun _ => num32 (t.getF a)) [0] t.gens
    let c := match r.1 with | x :: _ => x.2.1 | [] => 0
    .done (((t.setS d (BitVec.ofNat 64 c)).setGens r.2).addFx (codesFx r.1)))
def execFcvtX2f (g : BitVec 4) (d a : BitVec 6) (f : BitVec 6) (s : State) : Out :=
  scalarFloat (.fcvtX2f g d a f) g d (fun t => decodeElem f ((t.getS a).toNat % 256 ^ fmtBytes f)) s
def execFcvtF2i (g : BitVec 4) (d a : BitVec 6) (s : State) : Out :=
  run (.fcvtF2i g d a) g .scalar s (fun t =>
    let r := fToInt true 64 t.rmF (t.getF a)
    .done ((t.setS d (BitVec.ofInt 64 r.1)).addFx r.2))
def execFcvtF2u (g : BitVec 4) (d a : BitVec 6) (s : State) : Out :=
  run (.fcvtF2u g d a) g .scalar s (fun t =>
    let r := fToInt false 64 t.rmF (t.getF a)
    .done ((t.setS d (BitVec.ofInt 64 r.1)).addFx r.2))
def execFcvtI2f (g : BitVec 4) (d a : BitVec 6) (s : State) : Out :=
  scalarFloat (.fcvtI2f g d a) g d (fun t => intToF t.rmF (t.getS a).toInt) s
def execFcvtU2f (g : BitVec 4) (d a : BitVec 6) (s : State) : Out :=
  scalarFloat (.fcvtU2f g d a) g d (fun t => intToF t.rmF (t.getS a).toNat) s

/-- FCMP (R160): under a false guard the compare is not made, zeros are written. -/
def execFcmp (g : BitVec 4) (p e : BitVec 3) (a b : BitVec 6) (c : BitVec 4) (s : State) : Out :=
  run (.fcmp g p e a b c) g .own s (fun t =>
    if t.holds g then
      let r := fCompare c.toNat (t.getF a) (t.getF b)
      .done ((t.setPair p e true r.1).addFx r.2)
    else .done (t.setPair p e false false))

end Sys2Proof.Machine
end

