-- ==== Sys2Proof/Machine/Matrix.lean ====
section
/-!
DEFINITION. The matrix unit's instructions (R162 to R183): descriptors, operands, fetch slots, acceptance.
-/

namespace Sys2Proof.Machine

/-! Windows and ownership (R163, R164, R166). -/

/-- The window a descriptor gives, where it is valid; `full` for MXMUL and MXMULS. -/
def mxWindow (d : W64) (full : Bool) : Option Window :=
  let m := fld d 6 0 + 1
  let row0 := fld d 40 32
  if fld d 63 50 ≠ 0 || fld d 47 41 ≠ 0 || fld d 31 28 ≠ 0 || fld d 15 15 ≠ 0 || fld d 7 7 ≠ 0 || row0 + m > 512 ||
      (!full && (fld d 27 16 ≠ 0 || fld d 49 48 ≠ 0)) then none
  else some ⟨row0, m, fld d 14 8 + 1, fld d 27 16 + 1, fld d 49 48⟩

/-- A window touches row group n. -/
def Window.touches (w : Window) (n : Nat) : Bool := w.row0 / 16 ≤ n && n ≤ (w.row0 + w.m - 1) / 16
/-- Row group n is owned by an operation in flight. -/
def Quad.owns (q : Quad) (n : Nat) : Bool := q.ops.any (fun o => o.win.touches n)
/-- A group of the window is owned. -/
def Quad.busy (q : Quad) (w : Window) : Bool := (fromTo 0 32).any (fun n => w.touches n && q.owns n)

/-! Operands (R167 to R169, R172). -/

/-- What a check of an operand gives: a cause and TVAL, a page in transit, or the operand. -/
inductive OpCheck (α : Type) where
  | bad (cause : BitVec 6) (tval : W64)
  | transit
  | ok (x : α)

/-- The attribute entry that covers a local-window address (R193). -/
def State.windowAttr (s : State) (q va : Nat) : Attr := attrOf ((s.quad q).attr ((va - localWin) / 0x20000))

/-- Bytes that one scale covers (R127). -/
def Attr.unit (a : Attr) : Nat := fmtBytes a.fmt * 2 ^ a.g

/-- The virtual 4 KiB pages of n bytes from va on. -/
def pagesOf (va n : Nat) : List Nat := fromTo (va / 4096) ((va + n - 1) / 4096 + 1 - va / 4096)

/-- Translates the scales of pages, each page given by its lowest byte that is read (R127): a map from the page to the
place of the scale of its first byte; a page without a shadow has no entry. A fault has TVAL at the scale of the byte
given; scale bytes on a host-owned page take cause 0x13 (R203). -/
def State.scalePages (s : State) (w : Who) : List (Nat × Attr) → State × OpCheck (Map Nat)
  | [] => (s, .ok [])
  | (lo, a) :: ps =>
    let p := lo / 4096
    if !a.sh then s.scalePages w ps
    else
      match s.place w accR (s.scaleAddr w (4096 * p) a) with
      | (u, .bad c) => (u, .bad c (BitVec.ofNat 64 (s.scaleAddr w lo a)))
      | (u, .at pa _ tr) =>
        if isHost pa then (u, .bad 0x13 (BitVec.ofNat 64 (s.scaleAddr w lo a)))
        else match u.scalePages w ps with
        | (v, .ok m) => if tr then (v, .transit) else (v, .ok ((p, pa) :: m))
        | r => r

/-- A local-memory operand of rows of k elements at va, with the checks that its descriptor and the quad's attribute
table decide (R168, R169, R175, R185): `raw` says that a raw page will do. -/
def State.localOperand (s : State) (q va rows k : Nat) (raw : Bool) : OpCheck Operand :=
  if !(localWin ≤ va && va < localWin + Memory.localSize) then .bad 0x22 0
  else
    let a := s.windowAttr q va
    let bytes := rows * k * fmtBytes a.fmt
    if a.fmt = 0 && !raw then .bad 0x22 0
    else if va + bytes > localWin + Memory.localSize then .bad 0x14 (BitVec.ofNat 64 (localWin + Memory.localSize))
    else if (pagesOf va bytes).any (fun p => !(s.windowAttr q (max va (4096 * p))).agrees a) then .bad 0x22 0
    else
      .ok { slot := none, last := false, va := va, stride := k * fmtBytes a.fmt, attr := a,
            pages := (pagesOf va bytes).map (fun p => (p, quadLocal q + (4096 * p - localWin))), scales := [] }

/-- An operand of `rows` rows of k elements (R167, R168, R172). -/
def State.operand (s : State) (q : Nat) (d : W64) (rows k : Nat) : OpCheck Operand :=
  if fld d 59 56 ≠ 0 then .bad 0x22 0
  else if d.getLsbD 63 then
    match mapGet (s.quad q).slots (fld d 62 61) with
    | some f =>
      if fld d 55 0 ≠ 0 || f.closing || fld f.desc 22 16 + 1 < rows || fld f.desc 15 0 < k * fmtBytes f.attr.fmt then
        .bad 0x22 0
      else
        .ok { slot := some (fld d 62 61), last := d.getLsbD 60, va := f.addr.toNat, stride := fld f.desc 55 32,
              attr := f.attr, pages := f.pages, scales := f.scales }
    | none => .bad 0x22 0
  else if fld d 62 60 ≠ 0 then .bad 0x22 0
  else s.localOperand q (fld d 55 0) rows k false

/-- The translation of an operand, after the checks of every descriptor (R185): a local-memory operand through its
attribute entries, then its scales, read with its elements whatever MXSC.SH is (R127, R169, log 61). -/
def State.withScales (s : State) (w : Who) (o : Operand) : State × OpCheck Operand :=
  if o.slot.isNone && !attrAccepted o.attr localWin 0x20000 then (s, .bad 0x10 (BitVec.ofNat 64 o.va))
  else if o.slot.isNone && o.attr.sh then
    match s.scalePages w (o.pages.map (fun p => (max o.va (4096 * p.1), o.attr))) with
    | (u, .ok m) => (u, .ok { o with scales := m })
    | (u, .bad c v) => (u, .bad c v)
    | (u, .transit) => (u, .transit)
  else (s, .ok o)

/-- The translation of two operands: the faults of the first, those of the second, then a page in transit of either (R35,
R185). -/
def State.withBoth (s : State) (w : Who) (x y : Operand) : State × OpCheck (Operand × Operand) :=
  let r := s.withScales w x
  match r.2 with
  | .bad c v => (r.1, .bad c v)
  | .transit => (match r.1.withScales w y with | (u, .bad c v) => (u, .bad c v) | (u, _) => (u, .transit))
  | .ok a => (match r.1.withScales w y with
    | (u, .ok b) => (u, .ok (a, b))
    | (u, .bad c v) => (u, .bad c v)
    | (u, .transit) => (u, .transit))

/-- Runs the rest where a check passed; a page in transit under a scale, which R36 has reported at step 4, is reported
with the one A-class code of the row (log 27). -/
def checked {α : Type} (r : State × OpCheck α) (rest : State → α → Res) : Res :=
  match r.2 with
  | .bad c v => .trap r.1 c v
  | .transit => .wait r.1 0x10 []
  | .ok x => rest r.1 x

/-- Captured mode: 5 is read as nearest-even (R173, R175). -/
def mode14 (rm : Nat) : Nat := if rm = 5 then 1 else rm

/-- Accepts an operation (R164, R172): its slots named with LAST become closing. -/
def State.acceptOp (s : State) (q : Nat) (o : MxOp) : State :=
  let closes (k : Nat) : Bool := [o.a, o.b].any (fun x => match x with | some y => y.slot == some k && y.last | none => false)
  s.modQuad q (fun x =>
    { x with
      ops := x.ops ++ [o],
      active := true,
      slots := x.slots.map (fun f => if closes f.1 then (f.1, { f.2 with closing := true }) else f) })

/-- The window an inbox command names. -/
def MxCommand.window (c : MxCommand) : Option Window := mxWindow c.w (fld c.word 63 60 ≤ 1)

/-- Two windows share a row group. -/
def Window.meets (w x : Window) : Bool := (fromTo 0 32).any (fun n => w.touches n && x.touches n)

/-- The head command of the inbox loses a tie with an operation of a window: its groups are free (R165). -/
def Quad.losesTo (q : Quad) (w : Window) : Bool :=
  match q.inbox with
  | c :: _ => (match c.window with | some x => x.meets w && !q.busy x | none => false)
  | [] => false

/-- A local instruction finds groups of its window owned, or the head command of the inbox ahead of it in this cycle: one
that has lost 8 ties in a row is accepted first (R164, R165). -/
def Quad.heldBack (q : Quad) (w : Window) : Bool := q.busy w || (8 ≤ q.ties && q.losesTo w)

/-- Accepts an operation of the issuing context, whose earlier accesses are performed first (R170). -/
def State.acceptHere (s : State) (o : MxOp) : State :=
  let t := s.performAll s.cur.core s.cur.ctx
  (t.modQuad s.q (fun q => { q with tied := q.tied || q.losesTo o.win })).acceptOp s.q o

/-- An operation of the issuing context. -/
def State.opOf (s : State) (kind : MxKind) (w : Window) (a b : Option Operand) (rm : Nat) : MxOp :=
  { kind := kind, win := w, a := a, b := b, sc := s.mxsc w.sc, rm := mode14 rm,
    prog := if kind = .mul || kind = .muls then (s.quad s.q).prog else none,
    source := .ctx s.cur.core s.cur.ctx, vf := s.myVf, tag := s.myTag, old := [] }

/-- MXMUL and MXMULS (R173). -/
def mxMultiply (i : Instr) (g : BitVec 4) (kind : MxKind) (d a b : BitVec 6) (s : State) : Out :=
  run i g .scalar s (fun t =>
    match mxWindow (t.getS d) true with
    | none => .trap t 0x22 0
    | some w =>
      checked (t, t.operand t.q (t.getS a) w.m w.k) (fun _ x0 =>
        checked (t, t.operand t.q (t.getS b) w.n w.k) (fun _ y0 =>
          checked (t.withBoth t.me x0 y0) (fun v xy =>
            if (v.quad v.q).heldBack w then .wait v 0x10 []
            else v.device i [] (fun _ => .done (v.acceptHere (v.opOf kind w (some xy.1) (some xy.2) v.rm)))))))

def execMxmul (g : BitVec 4) (d a b : BitVec 6) (s : State) : Out := mxMultiply (.mxmul g d a b) g .mul d a b s
def execMxmuls (g : BitVec 4) (d a b : BitVec 6) (s : State) : Out := mxMultiply (.mxmuls g d a b) g .muls d a b s

/-- MXRD and MXWR (R175). -/
def mxMove (i : Instr) (g : BitVec 4) (kind : MxKind) (d a : BitVec 6) (s : State) : Out :=
  run i g .scalar s (fun t =>
    match mxWindow (t.getS d) false with
    | none => .trap t 0x22 0
    | some w =>
      checked (t, t.localOperand t.q (t.getS a).toNat w.m w.n true) (fun _ x0 =>
        checked (t.withScales t.me x0) (fun u x =>
          if (u.quad u.q).heldBack w then .wait u 0x10 []
          else u.device i [] (fun _ => .done (u.acceptHere (u.opOf kind w (some x) none u.roundMode))))))

def execMxrd (g : BitVec 4) (d a : BitVec 6) (s : State) : Out := mxMove (.mxrd g d a) g .rd d a s
def execMxwr (g : BitVec 4) (d a : BitVec 6) (s : State) : Out := mxMove (.mxwr g d a) g .wr d a s

def execMxzero (g : BitVec 4) (d : BitVec 6) (s : State) : Out :=
  run (.mxzero g d) g .scalar s (fun t =>
    match mxWindow (t.getS d) false with
    | none => .trap t 0x22 0
    | some w =>
      if (t.quad t.q).heldBack w then .wait t 0x10 []
      else t.device (.mxzero g d) [] (fun _ => .done (t.acceptHere (t.opOf .zero w none none 1))))

def execMxdrain (g : BitVec 4) (a : BitVec 6) (s : State) : Out :=
  run (.mxdrain g a) g .scalar s (fun t =>
    let m := t.getS a
    let q := t.quad t.q
    let named (n : Nat) : Bool := q.inbox.any (fun c => match c.window with | some w => w.touches n | none => false)
    if fld m 63 32 ≠ 0 then .trap t 0x22 0
    else if (fromTo 0 32).any (fun n => m.getLsbD n && (q.owns n || named n)) then .wait t 0x10 []
    else if fld m 31 0 = 0 then .done (t.acquire t.cur.core (t.scopeHere 1))
    else t.device (.mxdrain g a) [] (fun _ => .done (t.acquire t.cur.core (t.scopeHere 1))))

/-! MXFETCH (R171, R172). -/

/-- The pieces of a fetch: its rows, each cut at 4 KiB. -/
def fetchPieces (a d : W64) : List (Nat × Nat) :=
  (fromTo 0 (fld d 22 16 + 1)).flatMap (fun r =>
    let start := (a.toNat + r * fld d 55 32) % 2 ^ 64
    (pagesOf start (fld d 15 0)).map (fun p =>
      let lo := max start (4096 * p)
      (lo % 2 ^ 64, min (start + fld d 15 0) (4096 * p + 4096) - lo)))

/-- Pages translated for a fetch: frames, attributes, transit. -/
structure Fetched where
  pages : Map Nat
  attrs : List Attr
  tr    : Bool

/-- Translates the pages of a fetch; a host-owned page takes cause 0x13 (R203). -/
def State.fetchPages (s : State) (w : Who) : List (Nat × Nat) → State × OpCheck Fetched
  | [] => (s, .ok ⟨[], [], false⟩)
  | (va, _) :: rest =>
    match s.place w accR va with
    | (u, .bad c) => (u, .bad c (BitVec.ofNat 64 va))
    | (u, .at pa a tr) =>
      if isHost pa then (u, .bad 0x13 (BitVec.ofNat 64 va))
      else match u.fetchPages w rest with
        | (v, .ok f) => (v, .ok ⟨mapSet f.pages (va / 4096) (pa / 4096 * 4096), a :: f.attrs, tr || f.tr⟩)
        | r => r

/-- The pages of a fetch, each with the lowest byte that is read of it and its attributes. -/
def Fetched.lowest (f : Fetched) (pieces : List (Nat × Nat)) : List (Nat × Attr) :=
  f.pages.filterMap (fun p =>
    let here := (pieces.zip f.attrs).filter (fun x => x.1.1 / 4096 == p.1)
    here.head?.map (fun x => (here.foldl (fun n y => min n y.1.1) x.1.1, x.2)))

/-- The runs that a fetch reads, of its rows and of their scales, one of which covers `unit` bytes. -/
def fetchRuns (pages scales : Map Nat) (unit : Nat) (pieces : List (Nat × Nat)) : List (Nat × Nat) :=
  pieces.filterMap (fun p => (mapGet pages (p.1 / 4096)).map (fun pa => (pa + p.1 % 4096, p.2))) ++
    pieces.filterMap (fun p => (mapGet scales (p.1 / 4096)).map (fun pa =>
      (pa + p.1 % 4096 / unit, (p.1 % 4096 + p.2 - 1) / unit - p.1 % 4096 / unit + 1)))

/-- The lines that a fetch reads (R40). -/
def Fetched.lines (f : Fetched) (pieces : List (Nat × Nat)) (scales : Map Nat) : List Nat :=
  linesOf (fetchRuns f.pages scales (f.attrs.headD ⟨1, false, false, 0, 0⟩).unit pieces)

/-- Bytes that a slot pins. -/
def FetchSlot.pin (f : FetchSlot) : Nat := (fld f.desc 22 16 + 1) * fld f.desc 15 0
/-- Bytes pinned by the slots of a tile other than slot k of quad q (R171). -/
def State.pinnedOthers (s : State) (t q k : Nat) : Nat :=
  ((tileQuads t).map (fun r => (((s.quad r).slots.filter (fun f => f.2.pinned && !(r == q && f.1 == k))).map (fun f => f.2.pin)).sum)).sum

/-- An operation in flight names slot k. -/
def Quad.slotInUse (q : Quad) (k : Nat) : Bool :=
  q.ops.any (fun o => [o.a, o.b].any (fun x => match x with | some y => y.slot == some k | none => false))

/-- The pins of slot k are on their way out (R171, R172). -/
def State.unpin (s : State) (q k : Nat) : State :=
  match mapGet (s.quad q).slots k with
  | some f => if f.pinned then s.modTile (tileOfQuad q) (fun t => { t with pinBusy := t.pinBusy + f.pin }) else s
  | none => s

/-- MXFETCH from the test of the slot on: pages and scales are translated. A retry of a home is code 0x42 (R398). -/
def State.fillSlot (s : State) (i : Instr) (a d : W64) (f : Fetched) (scales : Map Nat) (at' : Attr) : Res :=
  let q := s.q
  let t := tileOfQuad q
  let k := fld d 57 56
  let bytes := (fld d 22 16 + 1) * fld d 15 0
  let others := s.pinnedOthers t q k
  let lines := f.lines (fetchPieces a d) scales
  let runs := lines.map (fun l => (64 * l, 64))
  if (s.quad q).slotInUse k then .wait s 0x10 []
  else if bytes + others > 0x200000 then .wait s 0x1D []
  else if bytes + others + (s.tile t).pinBusy > 0x200000 && s.retryCount i < Config.B then .wait s 0x4A lines
  else
    let c := s.discretion6 i
    if c = 0x41 || c = 0x42 then .wait s c lines
    else if s.retryCount i < Config.B && s.askBusy t runs 0 then .wait (s.askAgain (s.asked t runs 0) 0 (some t)) 0x42 lines
    else
      let u := (s.performAll s.cur.core s.cur.ctx).unpin q k
      let slot : FetchSlot :=
        { addr := a, desc := d, attr := at', pages := f.pages, scales := scales, filled := false, closing := false,
          pinned := true }
      .done (u.modQuad q (fun x => { x with slots := mapSet x.slots k slot }))

def execMxfetch (g : BitVec 4) (a b : BitVec 6) (s : State) : Out :=
  run (.mxfetch g a b) g .scalar s (fun t =>
    let i : Instr := .mxfetch g a b
    let d := t.getS b
    let pieces := fetchPieces (t.getS a) d
    if fld d 63 58 ≠ 0 || fld d 31 23 ≠ 0 || fld d 15 0 = 0 || (fld d 22 16 + 1) * fld d 15 0 > 65536 then .trap t 0x22 0
    else
      let r := t.fetchPages t.me pieces
      let sc := match r.2 with
        | .ok f => r.1.scalePages t.me (f.lowest pieces)
        | _ => (r.1, .ok [])
      let vas := pieces.map (fun p => p.1) ++ (match r.2 with
        | .ok f => (f.lowest pieces).filterMap (fun x => if x.2.sh then some (t.scaleAddr t.me x.1 x.2) else none)
        | _ => [])
      let c := t.discretion4 i t.me vas
      let lines := match r.2, sc.2 with
        | .ok f, .ok m => f.lines pieces m
        | .ok f, _ => f.lines pieces []
        | _, _ => []
      if c ≠ 0 then .wait (t.walking t.me c vas sc.1) c lines
      else match r.2 with
        | .bad x v => .trap r.1 x v
        | .transit => .wait r.1 0x12 []
        | .ok f =>
          let at' := f.attrs.headD ⟨1, false, false, 0, 0⟩
          let rest (m : Map Nat) (tr : Bool) : Res :=
            if fld d 15 0 % fmtBytes at'.fmt ≠ 0 || at'.fmt = 0 || f.attrs.any (fun x => !x.agrees at') then
              .trap sc.1 0x22 0
            else if tr then .wait sc.1 0x12 []
            else sc.1.fillSlot i (t.getS a) d f m at'
          match sc.2 with
          | .bad x v => .trap sc.1 x v
          | .transit => rest [] true
          | .ok m => rest m f.tr)

/-! The inner-loop buffer (R177, R178). -/

/-- The fields of step j. -/
def stepWord (steps : W64) (j : Nat) : Nat := bits steps.toNat (16 * j + 15) (16 * j)

/-- The temporaries that steps before j write. -/
def stepsWrite (steps : W64) (j t : Nat) : Bool := (fromTo 0 j).any (fun i => bits (stepWord steps i) 11 10 = t)

/-- Step j is right (R177). -/
def stepOk (steps : W64) (j : Nat) : Bool :=
  let w := stepWord steps j
  let opc := bits w 15 12
  let source (x : Nat) : Bool := x < 3 || x > 5 || stepsWrite steps j (x - 3)
  bits w 3 0 = 0 && opc ≤ 8 && bits w 11 10 ≠ 3 && ((opc ≠ 5 && opc ≠ 6) || bits w 6 4 = 7) &&
    source (bits w 9 7) && source (bits w 6 4)

/-- An operation in flight captured the buffer. -/
def Quad.bufferBusy (q : Quad) : Bool := q.ops.any (fun o => o.prog.isSome)

def execMxprog (g : BitVec 4) (a b : BitVec 6) (s : State) : Out :=
  run (.mxprog g a b) g .scalar s (fun t =>
    let steps := t.getS a
    let c := t.getS b
    let len := fld c 33 32 + 1
    if fld c 63 34 ≠ 0 || steps.toNat / 2 ^ (16 * len) ≠ 0 || !(fromTo 0 len).all (stepOk steps) then .trap t 0x22 0
    else if (t.quad t.q).bufferBusy then .wait t 0x11 []
    else .done (t.modQuad t.q (fun x => { x with prog := some ⟨steps, c.extractLsb' 0 32, len⟩ })))

def execMxdef (g : BitVec 4) (s : State) : Out :=
  run (.mxdef g) g .scalar s (fun t =>
    if (t.quad t.q).bufferBusy then .wait t 0x11 [] else .done (t.modQuad t.q (fun x => { x with prog := none })))

/-! Thresholds and status (R179 to R181). -/

def execMxscl (g : BitVec 4) (a : BitVec 6) (s : State) : Out :=
  run (.mxscl g a) g .scalar s (fun t =>
    let v := t.getS a
    if fld v 63 48 ≠ 0 then .trap t 0x22 0 else .done (t.modQuad t.q (fun x => { x with thresh := v })))
def execMxstat (g : BitVec 4) (d : BitVec 6) (s : State) : Out :=
  scalarOp (.mxstat g d) g d (fun t => (t.quad t.q).status) s
def execMxclr (g : BitVec 4) (s : State) : Out :=
  run (.mxclr g) g .scalar s (fun t => .done (t.modQuad t.q (fun x => { x with status := 0 })))

/-! Capabilities and commands (R182, R183). -/

def execMxcap (g : BitVec 4) (d a b : BitVec 6) (s : State) : Out :=
  run (.mxcap g d a b) g .scalar s (fun t =>
    let v := t.getS a
    let gvf := fld v 56 48
    let row0 := fld v 40 32
    let rows := fld v 25 16
    let slot := fld v 2 0
    if fld v 63 57 ≠ 0 || fld v 47 41 ≠ 0 || fld v 31 26 ≠ 0 || fld v 15 3 ≠ 0 || gvf > 383 || rows = 0 ||
        row0 + rows > 512 then .trap t 0x22 0
    else if gvf ≠ t.myVf && !t.priv then .trap t 0x03 0
    else
      let dr := t.draw
      let chk : BitVec 43 := (Config.random dr.1).extractLsb' 0 43
      let u := dr.2.modQuad t.q (fun x => { x with caps := mapSet x.caps slot ⟨gvf, row0, rows, t.getS b, chk⟩ })
      .done (u.setS d (BitVec.ofNat 64 (t.q * 2 ^ 46 + slot * 2 ^ 43 + chk.toNat))))

/-- Registers that a command of an operation reads beside S[a] (R183). -/
def commandRegs (op : Nat) (a : BitVec 6) : List (BitVec 6) :=
  if op ≤ 1 then [a + 1, a + 2, a + 3] else if op = 8 then [a + 1] else [a + 1, a + 2]

/-- Commands on their way to a quad, or in its inbox. -/
def State.commandsFor (s : State) (q : Nat) : Nat :=
  (s.quad q).inbox.length + (s.hub.commands.filter (fun c => fld c.token 54 46 == q)).length

def execMxcmd (g : BitVec 4) (d a : BitVec 6) (s : State) : Out :=
  run (.mxcmd g d a) g .scalar s (fun t =>
    let i : Instr := .mxcmd g d a
    let token := t.getS d
    let w := t.getS a
    let op := fld w 63 60
    if a.toNat > 60 || fld token 63 55 ≠ 0 || (op ≠ 0 && op ≠ 1 && op ≠ 6 && op ≠ 7 && op ≠ 8) || fld w 59 56 ≠ 0 ||
        fld w 2 0 ≠ 0 then .trap t 0x22 0
    else match ((commandRegs op a).filterMap (fun r => if r = 0 then none else t.regPoison (.s r))).min? with
      | some x => .trap t 0x3B (localVa x)
      | none =>
        if t.commandsFor (fld token 54 46) ≥ 4 && t.retryCount i < Config.B then .wait t 0x49 []
        else t.device i [] (fun _ =>
          let u := t.performAll t.cur.core t.cur.ctx
          let used (r : BitVec 6) : W64 := if (commandRegs op a).contains r then t.getS r else 0
          let c : MxCommand :=
            { token := token, vf := t.myVf, tag := t.myTag, core := t.cur.core, ctx := t.cur.ctx, live := true,
              hoop := t.myHoop, word := w, w := used (a + 1), a := used (a + 2), b := used (a + 3),
              sc := t.mxsc (fld (used (a + 1)) 49 48), rm := mode14 (if op ≤ 1 then t.rm else t.roundMode) }
          .done (u.modHub (fun h => { h with commands := h.commands ++ [c] }))))

end Sys2Proof.Machine
end

