-- ==== Sys2Proof/Machine/MatrixRun.lean ====
section
/-!
DEFINITION. What the matrix unit does on its own: the arithmetic of an accepted operation (R138, R170, R173, R175,
R177), its events (R179, R180), and the steps of fetch slots and of remote commands (R171, R172, R183).
-/

namespace Sys2Proof.Machine

/-! Reading operands (R168, R170). -/

/-- Virtual address of element k of row r. -/
def Operand.at (o : Operand) (r k : Nat) : Nat := (o.va + r * o.stride + k * fmtBytes o.attr.fmt) % 2 ^ 64
/-- Physical address of a byte. -/
def Operand.pa (o : Operand) (va : Nat) : Nat := (mapGet o.pages (va / 4096)).getD 0 + va % 4096
/-- A byte of an operand as an operation reads it (R170): one overwritten since the issue is the old one or the new one,
as a free bit of the element or scale at `first` has it (R130). -/
def MxOp.look (s : State) (o : MxOp) (first pa : Nat) : Byte :=
  match mapGet o.old pa with
  | some b => if s.bitAt first then b else s.look pa
  | none => s.look pa
/-- The stored code of an element. -/
def MxOp.code (s : State) (o : MxOp) (x : Operand) (r k : Nat) : Nat :=
  leNat ((fromTo (x.at r k) (fmtBytes x.attr.fmt)).map (fun a => o.look s (x.pa (x.at r k)) (x.pa a)))
/-- The scale byte of an element, 127 without a shadow. -/
def MxOp.scale (s : State) (o : MxOp) (x : Operand) (r k : Nat) : Nat :=
  let va := x.at r k
  match mapGet x.scales (va / 4096) with
  | some p => (o.look s (p + va % 4096 / x.attr.unit) (p + va % 4096 / x.attr.unit)).toNat
  | none => 127
/-- Element k starts a block of a scaled page (R138). -/
def Operand.cuts (o : Operand) (r k : Nat) : Bool :=
  o.attr.sh && (k = 0 || o.at r k / o.attr.unit != o.at r (k - 1) / o.attr.unit)
/-- The lowest poisoned byte among the elements and scales of some rows (R204). -/
def Operand.poison (s : State) (o : Operand) (rows k : Nat) : Option Nat :=
  if s.poison.isEmpty then none
  else
    ((fromTo 0 rows).flatMap (fun r => (fromTo 0 k).filterMap (fun j =>
      if (fromTo (o.at r j) (fmtBytes o.attr.fmt)).any (fun a => s.poisoned (o.pa a)) then some (o.at r j)
      else match mapGet o.scales (o.at r j / 4096) with
        | some p => if s.poisoned (p + o.at r j % 4096 / o.attr.unit) then some (o.at r j) else none
        | none => none))).min?

/-! One element (R138, R173, R177). -/

/-- An accumulator value with the events of its making: saturations, scale-factor events. -/
structure Made where
  y   : W32
  sat : Nat
  sc  : Nat
  deriving DecidableEq, Repr

/-- The clamp of MXMULS (R173). -/
def clampInf (on : Bool) (y : W32) : W32 :=
  if on && y &&& 0x7FFFFFFF = 0x7F800000 then (y &&& 0x80000000) ||| 0x7F7FFFFF else y

/-- The exponent of a scale factor, `none` where a scale is NaN (R138, R179). -/
def scaleExp (ea eb sa sb : Nat) : Option Int :=
  if ea = 255 || eb = 255 || sa = 255 || sb = 255 then none
  else some ((ea : Int) + eb - 254 + ((sa : Int) - 127) + ((sb : Int) - 127))

/-- The exact sum of products from k on. -/
def pieceSum (rm : Nat) (a b : Nat → Num) : Nat → Nat → Num
  | _, 0 => .fin false 0 0
  | k, 1 => (mulNum (a k) (b k)).1
  | k, n + 2 => (addNum rm (mulNum (a k) (b k)).1 (pieceSum rm a b (k + 1) (n + 1))).1

/-- One piece added to the accumulator, rounded once (R138). -/
def addPiece (rm : Nat) (clamp : Bool) (x : Option Int) (sum : Num) (m : Made) : Made :=
  let term := match x with | some e => sum.scale e | none => .nan false
  let r := encodeNum fp32 rm 0 false (addNum rm (num32 m.y) term).1
  { y := clampInf clamp (BitVec.ofNat 32 r.1),
    sat := m.sat + (if r.2 / 4 % 2 = 1 then 1 else 0),
    sc := m.sc + (match x with | some e => if -126 ≤ e && e ≤ 127 then 0 else 1 | none => 0) }

/-- The pieces of K elements, as start and length, given where a piece starts. -/
def piecesOf (start : Nat → Bool) (k : Nat) : List (Nat × Nat) :=
  let starts := (fromTo 0 k).filter start
  (starts.zip (starts.drop 1 ++ [k])).map (fun p => (p.1, p.2 - p.1))

/-- One step of a microprogram on the eight sources (R177). -/
def stepOp (opc rm : Nat) (x z : W32) : W32 × Nat :=
  match opc with
  | 0 => fAdd rm x z
  | 1 => fSub rm x z
  | 2 => fMul rm x z
  | 3 => fMinMax false x z
  | 4 => fMinMax true x z
  | 5 => fExp2 rm x
  | 6 => fLog2 rm x
  | 7 => (if (fCompare 0 x z).1 then 0x3F800000 else 0, 0)
  | _ => (if (fCompare 2 x z).1 then 0x3F800000 else 0, 0)

/-- The temporaries t0 to t2 and the saturations after some steps, and the value of the last. -/
structure Temps where
  t    : List W32
  last : W32
  sat  : Nat

/-- The steps of a program at one k. -/
def runSteps (p : Program) (rm : Nat) (clamp : Bool) (av bv y : W32) : Temps :=
  (fromTo 0 p.len).foldl (fun (st : Temps) j =>
    let w := stepWord p.steps j
    let src (n : Nat) : W32 :=
      match n with
      | 0 => av | 1 => bv | 2 => y | 6 => p.const | 7 => 0
      | n => (st.t[n - 3]?).getD 0
    let r := stepOp (bits w 15 12) rm (src (bits w 9 7)) (src (bits w 6 4))
    let v := clampInf clamp r.1
    ⟨st.t.set (bits w 11 10) v, v, st.sat + (if r.2 / 4 % 2 = 1 then 1 else 0)⟩) ⟨[0, 0, 0], y, 0⟩

/-- A scaled operand rounded to FP32 (R177), and 1 where this rounding overflows (R179). -/
def scaledOperand (rm e s : Nat) (x : Num) : W32 × Nat :=
  if e = 255 || s = 255 then (BitVec.ofNat 32 nan32, 0)
  else
    let r := encodeNum fp32 rm 0 false (x.scale ((e : Int) - 127 + ((s : Int) - 127)))
    (BitVec.ofNat 32 r.1, if r.2 / 4 % 2 = 1 then 1 else 0)

/-- One accumulator element of a multiply: window element (i, j), its old value (R138, R177). -/
def MxOp.element (s : State) (o : MxOp) (a b : Operand) (i j : Nat) (old : W32) : Made :=
  let ea := fld o.sc 7 0
  let eb := fld o.sc 15 8
  let shadow := o.sc.getLsbD 16
  let an (k : Nat) : Num := elemNum a.attr.fmt (o.code s a i k)
  let bn (k : Nat) : Num := elemNum b.attr.fmt (o.code s b j k)
  let sa (k : Nat) : Nat := if shadow then o.scale s a i k else 127
  let sb (k : Nat) : Nat := if shadow then o.scale s b j k else 127
  let clamp := o.kind = .muls
  match o.prog with
  | none =>
    let start (k : Nat) : Bool :=
      k = 0 || (if a.attr.sh || b.attr.sh then a.cuts i k || b.cuts j k else k % 32 = 0)
    (piecesOf start o.win.k).foldl (fun m p =>
      addPiece o.rm clamp (scaleExp ea eb (sa p.1) (sb p.1)) (pieceSum o.rm an bn p.1 p.2) m) ⟨old, 0, 0⟩
  | some p =>
    (fromTo 0 o.win.k).foldl (fun (m : Made) k =>
      let av := scaledOperand o.rm ea (sa k) (an k)
      let bv := scaledOperand o.rm eb (sb k) (bn k)
      let r := runSteps p o.rm clamp av.1 bv.1 m.y
      let x := scaleExp ea eb (sa k) (sb k)
      ⟨r.last, m.sat + av.2 + bv.2 + r.sat, m.sc + (match x with | some e => if -126 ≤ e && e ≤ 127 then 0 else 1 | none => 0)⟩) ⟨old, 0, 0⟩

/-! The work of an operation. -/

def Quad.acc (q : Quad) (n : Nat) : W32 := (mapGet q.accMem n).getD 0
/-- Accumulator element number of window element (i, j). -/
def Window.elem (w : Window) (i j : Nat) : Nat := 128 * (w.row0 + i) + j
/-- The elements of a window, row by row. -/
def Window.cells (w : Window) : List (Nat × Nat) := (fromTo 0 w.m).flatMap (fun i => (fromTo 0 w.n).map (fun j => (i, j)))

/-- Events of an operation: saturations, NaNs, scale factors (R179). -/
structure Events where
  sat : Nat
  nan : Nat
  sc  : Nat
  deriving DecidableEq, Repr

/-- An element changes from a non-NaN value to NaN (R179). -/
def Quad.becameNan (q : Quad) (n : Nat) (y : W32) : Nat := if (num32 y).isNan && !(num32 (q.acc n)).isNan then 1 else 0

/-- Writes accumulator elements; a word of two elements written whole is poisoned no more (R204). -/
def Quad.putAcc (q : Quad) (l : List (Nat × W32)) : Quad :=
  let keys := l.map (fun x => x.1)
  { q with
    accMem := l.foldl (fun m x => if x.2 = 0 then mapErase m x.1 else mapSet m x.1 x.2) q.accMem,
    accPoison := q.accPoison.filter (fun w => !(keys.contains (2 * w) && keys.contains (2 * w + 1))) }

/-- The value MXWR loads (R128, R175). -/
def MxOp.loaded (s : State) (o : MxOp) (x : Operand) (i j : Nat) : W32 :=
  loadLane x.attr.fmt x.attr.sh (o.scale s x i j) o.rm (o.code s x i j)
/-- The code MXRD stores, and whether its encoding overflows (R129, R175). -/
def MxOp.stored (s : State) (o : MxOp) (x : Operand) (i j : Nat) (y : W32) : Nat × Bool :=
  let f := x.attr.fmt
  if f == 0 || (f == 1 && !x.attr.sh) then (y.toNat, false)
  else
    let sc := o.scale s x i j
    if x.attr.sh && sc = 255 then ((fmtOf f).nan, false)
    else
      let r := encodeElem f o.rm false 1 ((num32 y).scale (127 - (sc : Int)))
      (r.1, r.2.1 / 4 % 2 = 1)

/-- A write of MXRD: protected bytes stay as they are (R81). -/
def State.matrixStore (s : State) (part vf pa va : Nat) (bytes : List Byte) : State :=
  let segs : List Seg := ((fromTo 0 bytes.length).zip bytes).filterMap (fun x =>
    if s.isProtected (pa + x.1) then none else some ⟨pa + x.1, va + x.1, [x.2]⟩)
  s.performSegs part vf (if segs.length = bytes.length then [⟨pa, va, bytes⟩] else segs)

/-- The transfer or the multiplication of an operation of quad q, with the events of each element, row by row. The bytes
of an MXRD all change in this one step, so a load before MXDRAIN finds all of them old or all new, of which R175 allows
either (DESIGN CHOICE, log 6). -/
def State.mxWork (s : State) (q : Nat) (o : MxOp) : State × List Events :=
  let qd := s.quad q
  match o.kind, o.a, o.b with
  | .zero, _, _ =>
    (s.setQuad q (qd.putAcc (o.win.cells.map (fun c => (o.win.elem c.1 c.2, 0)))), [])
  | .wr, some x, _ =>
    let vals := o.win.cells.map (fun c => (o.win.elem c.1 c.2, o.loaded s x c.1 c.2))
    (s.setQuad q (qd.putAcc vals), vals.map (fun e => ⟨0, qd.becameNan e.1 e.2, 0⟩))
  | .rd, some x, _ =>
    let out := o.win.cells.map (fun c => (c, o.stored s x c.1 c.2 (qd.acc (o.win.elem c.1 c.2))))
    let t := out.foldl (fun (t : State) e =>
      t.matrixStore (tileOfQuad q) o.vf (x.pa (x.at e.1.1 e.1.2)) (x.at e.1.1 e.1.2) (toLE (fmtBytes x.attr.fmt) e.2.1)) s
    (t, out.map (fun e => ⟨if e.2.2 then 1 else 0, 0, 0⟩))
  | _, some x, some y =>
    let made := o.win.cells.map (fun c =>
      (o.win.elem c.1 c.2, o.element s x y c.1 c.2 (qd.acc (o.win.elem c.1 c.2))))
    (s.setQuad q (qd.putAcc (made.map (fun e => (e.1, e.2.y)))),
     made.map (fun e => ⟨e.2.sat, qd.becameNan e.1 e.2.y, e.2.sc⟩))
  | _, _, _ => (s, [])

/-- The lowest poisoned byte an operation reads, or that it reads a poisoned accumulator word (R204). -/
def MxOp.poison (s : State) (q : Nat) (o : MxOp) : Option Nat :=
  let rows (x : Option Operand) (r k : Nat) : Option Nat := match x with | some y => y.poison s r k | none => none
  let acc := (s.quad q).accPoison.any (fun w => o.win.cells.any (fun c => o.win.elem c.1 c.2 / 2 == w))
  match o.kind with
  | .zero => none
  | .rd => if acc then some 0 else none
  | .wr => rows o.a o.win.m o.win.n
  | _ =>
    match rows o.a o.win.m o.win.k, rows o.b o.win.n o.win.k with
    | some x, some y => some (min x y)
    | some x, none => some x
    | none, some y => some y
    | none, none => if acc then some 0 else none

/-! Events and thresholds (R179, R180). -/

/-- n events of one class: the status word after them, and the status word as it stood after a count that went from
below the class's nonzero threshold to it. -/
def countClass (th : W64) (hi lo bit n : Nat) (x : W64 × List W64) : W64 × List W64 :=
  let c := fld x.1 hi lo
  let at' (v : Nat) : W64 := setFld (setFld x.1 hi lo (min v 0xFFFF)) bit bit 1
  if n = 0 then x
  else (at' (c + n), if c < fld th hi lo && fld th hi lo ≤ c + n then x.2 ++ [at' (fld th hi lo)] else x.2)

/-- Events counted element by element, in each element saturations, NaN, scale factors (log 36). -/
def countEvents (th w : W64) (l : List Events) : W64 × List W64 :=
  l.foldl (fun x e => countClass th 47 32 50 e.sc (countClass th 31 16 49 e.nan (countClass th 15 0 48 e.sat x))) (w, [])

/-- Counts events, those of one operation all together, so an MXCLR falls before or after all of them, of which R181 allows
either (DESIGN CHOICE, log 36); a crossing queues cause 0x23 or writes a record (R180). Crossings between two boundaries of one
context deliver a single trap. -/
def State.countMx (s : State) (q : Nat) (o : MxOp) (l : List Events) : State :=
  let x := s.quad q
  let r := countEvents x.thresh x.status l
  let t := s.setQuad q { x with status := r.1 }
  match o.source with
  | .ctx n k =>
    (match r.2 with
     | [] => t
     | w :: _ => if (t.ctx n k).pend.any (fun p => p.cause == 0x23) then t else t.pendCause n k 0x23 w true)
  | .gone n k => r.2.foldl (fun u w => u.faultRecord x.vf 0x23 w.toNat 0 o.tag (srcCtx n k) 0 0) t
  | .command _ => r.2.foldl (fun u w => u.faultRecord x.vf 0x23 w.toNat 0 o.tag (srcMatrix q) 0 0) t

/-- Products of an operation in binary8 equivalents (R303). -/
def MxOp.products (o : MxOp) : Nat :=
  match o.kind, o.a, o.b with
  | .mul, some x, some y | .muls, some x, some y =>
    let z := max (fmtBytes x.attr.fmt) (fmtBytes y.attr.fmt)
    let per := match o.prog with
      | some p => ((fromTo 0 p.len).filter (fun j => bits (stepWord p.steps j) 15 12 = 2)).length
      | none => 1
    o.win.m * o.win.n * o.win.k * per * (if z = 4 then 16 else if z = 2 then 4 else 1)
  | _, _, _ => 0

/-- The add of a finished command (R183): an engine access for its VF. -/
def State.commandAdd (s : State) (q : Nat) (o : MxOp) (va : Nat) : State :=
  let fail (t : State) (c : BitVec 6) : State := t.faultRecord o.vf c va 0 o.tag (srcMatrix q) 0 0
  match s.enginePlace (engineOf (quadCore q 0) o.vf) accRW.global va with
  | (u, .inr c) => fail u c
  | (u, .inl pa) =>
    if (fromTo pa 8).any (fun x => u.isProtected x) then fail u 0x03
    else if u.poisoned pa then fail u 0x3B
    else
      let r := u.counterAdd (tileOfQuad q) o.vf pa va 1
      if r.2 then r.1 else fail r.1 0x19

/-- The slots an operation named with LAST are released (R172). -/
def State.releaseSlots (s : State) (q : Nat) (o : MxOp) : State :=
  [o.a, o.b].foldl (fun t x =>
    match x with
    | some y =>
      match y.slot with
      | some k =>
        if y.last && (mapGet (t.quad q).slots k).isSome then
          (t.unpin q k).modQuad q (fun z => { z with slots := mapErase z.slots k })
        else t
      | none => t
    | none => t) s

/-- Operation o of quad q, at place n of those in flight, finishes (R164, R173). -/
def State.finishOp (s : State) (q n : Nat) (o : MxOp) : State :=
  let s0 := match o.poison s q with
    | some va => s.faultRecord o.vf 0x3B va 0 o.tag (srcMatrix q) 0 0
    | none => s
  let r := s0.mxWork q o
  let s1 := r.1.countMx q o r.2
  let s2 := (s1.releaseSlots q o).modQuad q (fun x => { x with ops := dropAt x.ops n })
  let s3 := { s2.modUsage o.vf (fun u => { u with mxops := u.mxops + o.products }) with
    draws := s2.draws + (if o.old.isEmpty then 0 else 1) }
  match o.source with
  | .command c => if fld c 55 3 = 0 then s3 else s3.commandAdd q o (fld c 55 3 * 8)
  | _ => s3

/-- The slots an operation names are filled; one that a later operation has released was filled for it (R172). -/
def State.opReady (s : State) (q : Nat) (o : MxOp) : Bool :=
  [o.a, o.b].all (fun x =>
    match x with
    | some y =>
      match y.slot with
      | some k => (match mapGet (s.quad q).slots k with | some f => f.filled | none => true)
      | none => true
    | none => true)

/-- The add of an operation's command, where it meets a retry. -/
def State.opBusy (s : State) (q : Nat) (o : MxOp) : List (Nat × Nat) :=
  match o.source with
  | .command c => if fld c 55 3 = 0 then [] else s.addBusy (engineOf (quadCore q 0) o.vf) (fld c 55 3 * 8)
  | _ => []

/-- An operation finishes; while its add meets a retry it is asked again (R398). -/
def execMatrixOperationFinish (q n : Nat) (s : State) : Out :=
  match (s.quad q).ops[n]? with
  | some o =>
    .next (if !s.opReady q o then s
      else if (s.opBusy q o).isEmpty then s.finishOp q n o else s.engineAgain (tileOfQuad q) (s.opBusy q o))
  | none => .next s

/-- Every operation in flight of a quad finishes, the oldest first (R184). -/
def State.drainMatrix (s : State) (q : Nat) : Nat → State
  | 0 => s
  | k + 1 =>
    match (s.quad q).ops with
    | o :: _ => (s.finishOp q 0 o).drainMatrix q k
    | [] => s

/-! Fetch slots (R171, R172). -/

/-- The runs a slot's fill reads: its rows and their scales. -/
def FetchSlot.runs (f : FetchSlot) : List (Nat × Nat) :=
  fetchRuns f.pages f.scales f.attr.unit (fetchPieces f.addr f.desc)

/-- The fill of a slot: its lines are read into the tile's slice. -/
def State.fillPinned (s : State) (q k : Nat) (f : FetchSlot) : State :=
  if f.filled then s
  else
    let u := s.engineRead (tileOfQuad q) (s.quad q).vf f.runs
    u.modQuad q (fun x => { x with slots := mapSet x.slots k { f with filled := true } })

/-- The fill of a slot, asked again while a home answers with a retry (R398). -/
def execFetchSlotFill (q k : Nat) (s : State) : Out :=
  match mapGet (s.quad q).slots k with
  | some f =>
    if f.filled then .next s
    else
      let b := s.engineBusy (tileOfQuad q) f.runs 0
      .next (if b.isEmpty then s.fillPinned q k f else s.engineAgain (tileOfQuad q) b)
  | none => .next s

def execPinReleaseComplete (t : Nat) (s : State) : Out := .next (s.modTile t (fun x => { x with pinBusy := 0 }))

/-! Remote commands (R183). -/

/-- A command enters its target's inbox of four; one for a quad that is not there is refused. -/
def execMxcmdArrival (n : Nat) (s : State) : Out :=
  match s.hub.commands[n]? with
  | none => .next s
  | some c =>
    let q := fld c.token 54 46
    let t := s.modHub (fun h => { h with commands := dropAt h.commands n })
    if q ≥ 384 then .next (t.modHub (fun h => { h with returns := h.returns ++ [c] }))
    else if (s.quad q).inbox.length ≥ 4 then .next s
    else .next (t.modQuad q (fun x => { x with inbox := x.inbox ++ [c] }))

/-- The capability a command presents grants its window (R183). -/
def State.granted (s : State) (q : Nat) (c : MxCommand) (w : Window) : Bool :=
  match mapGet (s.quad q).caps (fld c.token 45 43) with
  | some x =>
    x.chk.toNat == fld c.token 42 0 && x.gvf == c.vf &&
      (x.expiry == 0 || (s.tstamp (tileOfQuad q)).toNat < x.expiry.toNat) &&
      x.row0 ≤ w.row0 && w.row0 + w.m ≤ x.row0 + x.rows
  | none => false

/-- A command's operation at its target: `none` where the checks refuse it, the operation where they pass. An operand
whose scale page faults or is in transit is refused too, of which R183 says nothing (DESIGN CHOICE, log 27). -/
def State.commandOp (s : State) (q : Nat) (c : MxCommand) : State × Option MxOp :=
  let who := engineOf (quadCore q 0) c.vf
  let op := fld c.word 63 60
  match c.window with
  | none => (s, none)
  | some w =>
    let make (kind : MxKind) (a b : Option Operand) : MxOp :=
      { kind := kind, win := w, a := a, b := b, sc := c.sc, rm := c.rm,
        prog := if op ≤ 1 then (s.quad q).prog else none, source := .command c.word, vf := c.vf, tag := c.tag,
        old := [] }
    let scales (t : State) (x : OpCheck Operand) : State × Option Operand :=
      match x with
      | .ok o =>
        match t.withScales who o with
        | (u, .ok y) => (u, some y)
        | (u, _) => (u, none)
      | _ => (t, none)
    if !s.granted q c w then (s, none)
    else if op ≤ 1 then
      let x := scales s (s.operand q c.a w.m w.k)
      let y := scales x.1 (s.operand q c.b w.n w.k)
      match x.2, y.2 with
      | some a, some b => (y.1, some (make (if op = 0 then .mul else .muls) (some a) (some b)))
      | _, _ => (y.1, none)
    else if op = 8 then (s, some (make .zero none none))
    else
      let x := scales s (s.localOperand q c.a.toNat w.m w.n true)
      match x.2 with
      | some a => (x.1, some (make (if op = 6 then .rd else .wr) (some a) none))
      | none => (x.1, none)

/-- The head command of an inbox: refused, accepted, or left while its groups are owned (R164, R183). -/
def State.takeCommand (s : State) (q : Nat) : State :=
  match (s.quad q).inbox with
  | [] => s
  | c :: rest =>
    let popped (t : State) : State := t.modQuad q (fun x => { x with inbox := rest, tied := false, ties := 0 })
    match s.commandOp q c with
    | (u, none) => (popped u).modHub (fun h => { h with returns := h.returns ++ [c] })
    | (u, some o) => if (s.quad q).busy o.win then s else (popped u).acceptOp q o

/-- The core's clock runs for the context, and for the core (R28). -/
def Ctx.clocked (x : Ctx) : Bool := x.st = .ready || x.st = .held
def Core.runs (c : Core) : Bool := c.ctxs.any (fun x => x.2.clocked || x.2.resv.isSome)

/-- Cores of a quad whose issue cycle of the quad's present cycle is still to come (R84, R165). -/
def State.roundLeft (s : State) (q : Nat) : List Nat :=
  (quadCores q).filter (fun n => (s.core n).runs && !(s.quad q).round.contains n)

/-- A new cycle of a quad begins (R84, R165): the head command is tested after the local instructions of the last; one
that has lost 8 ties in a row is accepted ahead of those of the new. -/
def State.newCycle (s : State) (q : Nat) : State :=
  let t := s.takeCommand q
  let u := t.modQuad q (fun x =>
    { x with cycle := x.cycle + 1, round := [], grants := x.booked, booked := [], tied := false, ties := if x.tied then x.ties + 1 else 0 })
  if (u.quad q).ties ≥ 8 then u.takeCommand q else u

def execMxcmdAcceptance (q : Nat) (s : State) : Out :=
  .next (if (s.roundLeft q).isEmpty || (s.quad q).ties ≥ 8 then s.takeCommand q else s)

/-- A refusal returns to its sender: cause 0x24 with the token, or a record when the sender has exited (R183). -/
def execMxcmdRefusalReturn (n : Nat) (s : State) : Out :=
  match s.hub.returns[n]? with
  | none => .next s
  | some c =>
    let t := s.modHub (fun h => { h with returns := dropAt h.returns n })
    .next (t.pendSender c.core c.ctx c.hoop c.vf c.tag (!c.live) 0x24 c.token)

end Sys2Proof.Machine
end

