-- ==== Sys2Proof/Machine/Sched.lean ====
section
/-!
DEFINITION. Launch records and launch queues (R48, R49, R52, R53), placement (R29, R55 to R57).
-/

namespace Sys2Proof.Machine

/-! Launch records (R48, R49). -/

/-- The fields of a record read as one number. -/
def launchOf (v : Nat) : Launch :=
  let b (off n : Nat) : Nat := v / 256 ^ off % 256 ^ n
  let w (off : Nat) : W64 := BitVec.ofNat 64 (b off 8)
  { code := w 0, entry := b 8 2, nctx := b 0xA 1, flags := b 0xB 1, ox := b 0xC 1, oy := b 0xD 1, w := b 0xE 1,
    h := b 0xF 1, args := w 0x10, map := w 0x18, done := w 0x20, vf := b 0x28 2, queue := b 0x2A 1, tag := w 0x30,
    packet := none, hoop := none }

def Launch.anyplace (l : Launch) : Bool := l.flags % 2 = 1
def Launch.fuse (l : Launch) : Bool := l.flags / 2 % 2 = 1
def Launch.mapplace (l : Launch) : Bool := l.flags / 4 % 2 = 1

/-- The cores of a rectangle, in row-major order. -/
def rectCores (ox oy w h : Nat) : List Nat :=
  (fromTo oy h).flatMap (fun y => (fromTo ox w).map (fun x => coreAt x y))

/-- The cores of a placed hoop. -/
def Hoop.cores (x : Hoop) : List Nat := rectCores x.ox x.oy x.record.w x.record.h

/-- A byte at a virtual address of a VF, where the hub meets poison (R204). -/
def State.hubPoison (s : State) (vf va n : Nat) : Option Nat :=
  if s.poison.isEmpty then none
  else (fromTo va n).find? (fun a => match s.hubPa vf a with | some pa => s.poisoned pa | none => false)

/-- n bytes at a virtual address of a VF, read by the hub; `none` where a byte is not there, or is poisoned. -/
def State.hubRead (s : State) (vf va n : Nat) : Option Nat :=
  let l := (fromTo va n).map (fun a => s.hubPa vf a)
  if l.all (fun x => x.isSome) && (s.hubPoison vf va n).isNone then some (leNat (l.filterMap (fun x => x.map s.look)))
  else none

/-- The header of a data-placement map fits the record (R56). A header that cannot be read does not (log 30). -/
def State.mapOk (s : State) (l : Launch) : Bool :=
  match s.hubRead l.vf l.map.toNat 16 with
  | none => false
  | some v =>
    let ga := v % 256
    let gb := v / 256 % 256
    v / 2 ^ 32 = 0 && ga ≤ 6 && gb ≤ 4 && l.w % 2 ^ ga = 0 && l.h % 2 ^ gb = 0 &&
      v / 65536 % 65536 = l.w / 2 ^ ga * (l.h / 2 ^ gb)

/-- The hub has read n bytes of the data-placement map of a launch: poison in them is told in a record (R204). -/
def State.mapRead (s : State) (l : Launch) (n : Nat) : State :=
  if l.mapplace && l.vf < 384 then
    match s.hubPoison l.vf l.map.toNat n with
    | some va => s.faultRecord l.vf 0x3B va 0 l.tag srcHub 0 0
    | none => s
  else s
/-- Bytes of the data-placement map of a launch (R56). -/
def State.mapBytes (s : State) (l : Launch) : Nat :=
  match s.hubRead l.vf l.map.toNat 16 with | some v => 16 + 64 * (v / 65536 % 65536) | none => 16

/-- R49 for a record read as a number. -/
def State.launchOk (s : State) (v : Nat) : Bool :=
  let l := launchOf v
  let short (x : W64) : Bool := fld x 63 56 = 0
  v / 256 ^ 0x2B % 256 ^ 5 = 0 && v / 256 ^ 0x38 % 256 ^ 8 = 0 && l.flags < 8 && l.entry < 1024 &&
    1 ≤ l.nctx && l.nctx ≤ 16 && 1 ≤ l.w && l.w ≤ 64 && 1 ≤ l.h && l.h ≤ 24 &&
    short l.code && short l.args && short l.map && short l.done && l.code.toNat % 4096 = 0 && l.done.toNat % 8 = 0 &&
    l.vf < 384 && l.queue < 8 && (s.queue l.vf l.queue).isSome &&
    (l.mapplace || l.map = 0) && (!l.mapplace || l.anyplace) &&
    (!l.fuse || (l.w % 2 = 0 && l.h % 2 = 0)) &&
    (if l.anyplace then !l.mapplace || s.mapOk l
     else
       l.ox + l.w ≤ 64 && l.oy + l.h ≤ 24 && (!l.fuse || (l.ox % 2 = 0 && l.oy % 2 = 0)) &&
         (rectCores l.ox l.oy l.w l.h).all (fun n =>
           (s.part (s.vf l.vf).record.part).record.quads.contains (quadOf n)))

/-! Queues (R52, R53). -/

def LQueue.pending (q : LQueue) : Bool := !q.records.isEmpty
/-- The records of a queue that are not yet placed (R323). -/
def LQueue.count (q : LQueue) : Nat := (q.records.filter (fun l => l.hoop.isNone)).length

/-- The configured queues of a partition, by 8 v + q ascending. -/
def State.ringOf (s : State) (p : Nat) : Map LQueue :=
  s.hub.queues.filter (fun x => (s.vf (x.1 / 8)).record.part = p)

/-- The hoop counts as running: it holds its cores and is not stopped. -/
def Hoop.runs (x : Hoop) : Bool := x.state = .placed || x.state = .running
/-- A queue has a running hoop. -/
def State.queueRuns (s : State) (key : Nat) : Bool :=
  s.hub.hoops.any (fun x => x.2.runs && 8 * x.2.record.vf + x.2.record.queue = key)

/-- The smallest k of a refill that lifts a queue above 0 (R52). -/
def LQueue.lift (q : LQueue) : Nat :=
  if q.deficit + 64 * q.weight > 0 then 1 else (-q.deficit).toNat / (64 * max q.weight 1) + 1

/-- The refill of R52, where it applies. -/
def State.refill (s : State) (p : Nat) : State :=
  let ring := s.ringOf p
  let pend := ring.filter (fun x => x.2.pending)
  if pend.isEmpty || pend.any (fun x => x.2.deficit > 0) then s
  else
    let k := ((pend.map (fun x => x.2.lift)).min?).getD 1
    ring.foldl (fun t x =>
      t.modQueue (x.1 / 8) (x.1 % 8) (fun y =>
        { y with deficit := if y.pending || s.queueRuns x.1 then y.deficit + (k * y.weight * 64 : Nat) else 0 })) s

/-- The refill of every partition. -/
def State.refillAll (s : State) : State := s.hub.parts.foldl (fun t p => t.refill p.1) s

/-- A record enters its queue. -/
def State.enqueue (s : State) (l : Launch) : State :=
  (s.modQueue l.vf l.queue (fun q => { q with records := q.records ++ [l] })).refill (s.vf l.vf).record.part

/-! The save area and its switches (R54, R343; log 31). -/

/-- A switch of one hoop whose state is saved. -/
def Gang.waits (g : Gang) : Bool := g.phase = .saved && g.slice.isSome
/-- The save area of a partition is free for another switch: no switch has it, or one that can give it up. -/
def PartState.areaFree (x : PartState) : Bool := match x.gang with | none => true | some g => g.waits
/-- Bytes of the save area of a partition. -/
def PartState.inArea (x : PartState) (a : Nat) : Bool :=
  x.record.save ≤ a && a < x.record.save + 0x100 + 0x248000 * x.record.quads.length

/-- The switch that has the save area gives it up: it goes onto the shelf with what the area holds. -/
def State.shelve (s : State) (p : Nat) : State :=
  let x := s.part p
  match x.gang with
  | none => s
  | some g =>
    if g.waits then
      s.modPart p (fun y => { y with gang := none, shelf := y.shelf ++
        [{ g with image := s.mem.filter (fun c => x.inArea c.1), marks := s.poison.filter (fun a => x.inArea a) }] })
    else s

/-- The switch of a hoop has the save area again, with what it held for it; release tags of its lines go (R255). -/
def State.unshelve (s : State) (p h : Nat) : State :=
  match (s.part p).shelf.find? (fun g => g.slice = some h) with
  | none => s
  | some g =>
    let t := s.shelve p
    let x := t.part p
    let u := { t with
      mem := t.mem.filter (fun c => !x.inArea c.1), poison := t.poison.filter (fun a => !x.inArea a),
      hub := { t.hub with tags := t.hub.tags.filter (fun y => !x.inArea (64 * y.1)) } }
    let v := u.store (g.image.map (fun c => (c.1, [c.2])))
    { v with poison := g.marks ++ v.poison }.modPart p (fun y =>
      { y with gang := some { g with image := [], marks := [] }, shelf := y.shelf.filter (fun z => z.slice ≠ some h) })

/-- A launch that resumes a hoop needs the save area (R345). -/
def State.areaFor (s : State) (p : Nat) (l : Launch) : Bool :=
  match l.hoop with
  | none => true
  | some _ => (s.part p).areaFree

/-! Placement (R29, R55 to R57, R371). -/

/-- Every core of the rectangle may take a hoop of the VF: its quad is the VF's, and it is free, or `also` counts it
as free. -/
def State.fits (s : State) (vf ox oy w h : Nat) (also : Nat → Bool) : Bool :=
  (rectCores ox oy w h).all (fun n =>
    ((s.core n).hoop.isNone || also n) &&
      (s.quad (quadOf n)).part == some (s.vf vf).record.part && (s.quad (quadOf n)).vf == vf)

/-- The origins that keep a hoop of the record in the grid, smallest oy first, then smallest ox. -/
def Launch.origins (l : Launch) : List (Nat × Nat) :=
  ((fromTo 0 (25 - l.h)).flatMap (fun y => (fromTo 0 (65 - l.w)).map (fun x => (x, y)))).filter (fun o =>
    !l.fuse || (o.1 % 2 = 0 && o.2 % 2 = 0))

/-- The pages, as virtual addresses, of one range. -/
def rangePages (va len : Nat) : List Nat :=
  if len = 0 then [] else (fromTo (va / 4096) ((va + len - 1) / 4096 + 1 - va / 4096)).map (fun p => 4096 * p)

/-- The preferred die of a granule of a map: the one whose stacks hold most pages, the lowest of those that hold equally
many (R57, R189). An entry that cannot be read counts as one of no ranges, and a page that does not translate counts for no
die, of which R57 says nothing (DESIGN CHOICE, log 30). -/
def State.preferredDie (s : State) (vf entry : Nat) : Nat :=
  let word (i : Nat) : Nat := (s.hubRead vf (entry + 8 * i) 8).getD 0
  let pages := (fromTo 0 4).flatMap (fun i => rangePages (word (2 * i)) (word (2 * i + 1)))
  let dies := pages.filterMap (fun va =>
    match s.hubPa vf va with
    | some pa => if isHbm pa then some (bits pa 14 12 / 2) else none
    | none => none)
  let n (d : Nat) : Nat := (dies.filter (fun x => x = d)).length
  (fromTo 1 3).foldl (fun m d => if n d > n m then d else m) 0

/-- The granules of a map: offset, size, preferred die. The header is tested when the record arrives, and header and
entries are read anew at each attempt to place it: R57 names no moment (DESIGN CHOICE, log 30). -/
def State.granules (s : State) (l : Launch) : List (Nat × Nat × Nat × Nat × Nat) :=
  let v := (s.hubRead l.vf l.map.toNat 16).getD 0
  let gw := 2 ^ (v % 256)
  let gh := 2 ^ (v / 256 % 256)
  (fromTo 0 (l.h / gh)).flatMap (fun y => (fromTo 0 (l.w / gw)).map (fun x =>
    (x * gw, y * gh, gw, gh, s.preferredDie l.vf (l.map.toNat + 16 + 64 * (y * (l.w / gw) + x)))))

/-- Granules wholly on their preferred die, for an origin (R57). -/
def mapScore (g : List (Nat × Nat × Nat × Nat × Nat)) (o : Nat × Nat) : Nat :=
  (g.filter (fun x => (rectCores (o.1 + x.1) (o.2 + x.2.1) x.2.2.1 x.2.2.2.1).all (fun n => dieOf n = x.2.2.2.2))).length

/-- Where a launch goes, if it fits (R54, R55, R57). -/
def State.origin (s : State) (l : Launch) (also : Nat → Bool) : Option (Nat × Nat) :=
  match l.hoop with
  | some h =>
    match s.hoop h with
    | some x => if s.fits l.vf x.ox x.oy l.w l.h (fun n => also n || (s.core n).hoop = some h) then some (x.ox, x.oy) else none
    | none => none
  | none =>
    if !l.anyplace then (if s.fits l.vf l.ox l.oy l.w l.h also then some (l.ox, l.oy) else none)
    else
      let legal := l.origins.filter (fun o => s.fits l.vf o.1 o.2 l.w l.h also)
      if !l.mapplace then legal.head?
      else
        let g := s.granules l
        legal.foldl (fun m o => match m with | some b => if mapScore g o > mapScore g b then some o else m | none => some o) none

end Sys2Proof.Machine
end

