-- ==== Sys2Proof/Machine/Power.lean ====
section
/-!
DEFINITION. The vat, operating points, rails, the budget tick and sprint leases (R349 to R361).
-/

namespace Sys2Proof.Machine

/-! Rails and operating points (R352, R355). -/

/-- The point a quad is assigned, which it votes for. -/
def Quad.assigned (q : Quad) : Nat := match q.rise with | some r => r.1 | none => q.point

/-- The highest vote on a tile's rail, in mV. -/
def State.vote (s : State) (t : Nat) : Nat := (tileQuads t).foldl (fun m q => max m (pointMv (s.quad q).assigned)) 0

/-- A record of kind 0x11 for every partition with a quad on the rail (R361). -/
def State.railEvent (s : State) (t phase : Nat) : State :=
  let detail := toLE 2 t ++ toLE 2 (s.tile t).railMv ++ toLE 2 (s.vote t) ++ toLE 1 phase
  (((tileQuads t).filterMap (fun q => (s.quad q).part)).dedup).foldl (fun u p => u.eventRecord p 0x11 0xFFFF 0xFFFF detail) s

/-- A quad runs at a point from now on, with its record of kind 0x10. -/
def State.switchPoint (s : State) (q p why : Nat) : State :=
  let old := (s.quad q).point
  let t := s.modQuad q (fun x => { x with point := p, rise := none })
  if old = p then t else t.quadEvent q 0x10 (toLE 1 old ++ toLE 1 p ++ toLE 1 why)

/-- Assigns a point: at once where the rail has its voltage, else when it does (R355). -/
def State.assign (s : State) (q p why : Nat) : State :=
  if pointMv p ≤ (s.tile (tileOfQuad q)).railMv then s.switchPoint q p why
  else s.modQuad q (fun x => { x with rise := some (p, why) })

/-- The quads of a tile that wait for a voltage the rail has reached switch. -/
def State.riseQuads (s : State) (t : Nat) : State :=
  (tileQuads t).foldl (fun u q =>
    match (u.quad q).rise with
    | some r => if pointMv r.1 ≤ (u.tile t).railMv then u.switchPoint q r.1 r.2 else u
    | none => u) s

/-- The rail of a tile begins a phase at a time. -/
def State.railPhase (s : State) (t : Nat) (p : RailPhase) (code start : Nat) : State :=
  (s.modTile t (fun x =>
    { x with phase := p, holdEnd := if p = .hold then start + 50000 else x.holdEnd, stepAt := start })).railEvent t code

/-- What a change of the highest vote from `old` does to a rail (R355). -/
def State.settleRail (s : State) (t old : Nat) : State :=
  let new := s.vote t
  let r := s.tile t
  if new > old then
    if new > r.railMv then (if r.phase = .rise then s else s.railPhase t .rise 0 s.hub.now)
    else if new = r.railMv && r.phase ≠ .steady then s.railPhase t .steady 3 s.hub.now
    else s
  else if new < old then
    if r.phase = .steady || (r.phase = .rise && new ≤ r.railMv) then s.railPhase t .hold 1 s.hub.now else s
  else s

/-- One step of 10 mV of a rail that climbs or descends, 2 us after the last, where it is due by a time. -/
def State.railStep (s : State) (t due : Nat) : State :=
  let hi := s.vote t
  let r := s.tile t
  let reach (u : State) : State :=
    let v := u.riseQuads t
    if (v.tile t).railMv = hi then v.railPhase t .steady 3 (r.stepAt + 2000) else v
  if due < r.stepAt + 2000 then s
  else
    match r.phase with
    | .rise => reach (s.modTile t (fun x => { x with railMv := min (x.railMv + 10) hi, stepAt := x.stepAt + 2000 }))
    | .descent => reach (s.modTile t (fun x => { x with railMv := max (x.railMv - 10) hi, stepAt := x.stepAt + 2000 }))
    | _ => s
def execRailStep (t : Nat) (s : State) : Out := .next (s.railStep t s.hub.now)

/-- A hold of 50 us is over by a time: the descent begins when the hold ends. -/
def State.endHold (s : State) (t due : Nat) : State :=
  let r := s.tile t
  if r.phase ≠ .hold || due < r.holdEnd then s
  else if s.vote t < r.railMv then s.railPhase t .descent 2 r.holdEnd
  else s.railPhase t .steady 3 r.holdEnd
def execRailHoldExpiry (t : Nat) (s : State) : Out := .next (s.endHold t s.hub.now)

/-- A quad's FDUTY becomes d, with its record (R361). -/
def State.setDuty (s : State) (q d : Nat) : State :=
  let x := s.quad q
  if d = x.fduty then s else (s.modQuad q (fun y => { y with fduty := d })).quadEvent q 0x16 (toLE 1 x.fduty ++ toLE 1 d)

/-- A quad leaves its partition and is powered down: its vote is withdrawn and its FDUTY is 0, as that partition's queue
still records (R352, R355, R361). -/
def State.leavePart (s : State) (q : Nat) : State :=
  let old := s.vote (tileOfQuad q)
  (((s.assign q 0 1).settleRail (tileOfQuad q) old).setDuty q 0).modQuad q (fun x => { x with part := none, idle := true })

/-- A quad enters a partition; one that had no power takes the lowest FDUTY of a powered quad (R354; log 29). -/
def State.joinPart (s : State) (q p : Nat) : State :=
  let t := s.modQuad q (fun x => { x with part := some p })
  t.setDuty q (max (s.quad q).fduty 1)

/-! Leases (R356 to R359). -/

/-- A lease is valid. -/
def Quad.leased (q : Quad) : Bool := q.lease.getLsbD 31

/-- The point R352 gives a quad with no valid lease. -/
def State.restPoint (s : State) (q : Nat) : Nat :=
  match (s.quad q).part with
  | none => 0
  | some p => if (s.quad q).idle then 0 else min 2 (s.part p).ceil

/-- The reason of a change of a quad's point (R361): the end of a lease, the quad's falling idle or the end of that, else
its partition's ceiling. -/
def State.restWhy (s : State) (q : Nat) (wasIdle : Bool) : Nat :=
  if (s.quad q).point ≥ 3 then 3 else if (s.quad q).idle || ((s.quad q).point = 0 && wasIdle) then 1 else 2

/-- x(IDX) of R356. -/
def leaseShare (p : Nat) : Nat := if p = 3 then 250 else if p = 4 then 424 else if p = 5 then 550 else 0

/-- Meters lease energy, in 2^-10 uJ: the accumulator, SPRINTE, and the deficit of the holder's queue (R356). `paid` adds it
to ENERGY too, before the tick that measures the quad's whole energy. -/
def State.meter (s : State) (q e : Nat) (paid : Bool := false) : State :=
  let s1 := s.modQuad q (fun x =>
    let rest := x.acc2 - e
    { x with acc2 := rest, used := x.used + e, paid := if paid then x.paid + e else x.paid, lease := setFld x.lease 63 32 (rest / 1024000) })
  let s2 := s1.modUsage (s.quad q).vf (fun u =>
    { u with sprinte := u.sprinte + e, energy := if paid then u.energy + e else u.energy })
  match (s.quad q).holder with
  | none => s2
  | some h =>
    match s.hoop h.hoop with
    | none => s2
    | some x => s2.modQueue x.record.vf x.record.queue (fun l =>
        { l with deficit := l.deficit - ((l.rest + 4 * e) / 3072 : Nat), rest := (l.rest + 4 * e) % 3072 })

/-- The cause that a lease's end gives its holder (R359). -/
def leaseCause (reason : Nat) : Option (BitVec 6) :=
  match reason with
  | 1 | 2 | 5 => some 0x30
  | 3 => some 0x31
  | _ => none

/-- Ends the valid lease of a quad, its energy metered: VALID, ELEFT and LEASEEND are 0 (R359). -/
def State.closeLease (s : State) (q reason : Nat) : State :=
  let x := s.quad q
  if !x.leased then s
  else
    let t := s.modQuad q (fun y => { y with lease := BitVec.ofNat 64 (fld y.lease 15 0), leaseEnd := 0, holder := none, acc2 := 0 })
    let u := t.quadEvent q 0x13 (toLE 2 (fld x.lease 15 0) ++ toLE 1 reason ++ toLE 5 0 ++ toLE 8 (x.used / 1024))
    match leaseCause reason, x.holder with
    | some c, some h => u.pendCause h.core h.ctx c (BitVec.ofNat 64 (fld x.lease 15 0)) ((s.core h.core).hoop == some h.hoop)
    | _, _ => u

/-- Ends a lease between two ticks: the energy since the last one is metered, at most 35 uJ (R359; log 15), and the
quad's point is chosen by R352. -/
def State.endLease (s : State) (q reason : Nat) : State :=
  if !(s.quad q).leased then s
  else
    let d := s.draw
    let e := if leaseShare (s.quad q).point = 0 then 0 else (Config.freeValue d.1).toNat % (35 * 1024 + 1)
    let old := s.vote (tileOfQuad q)
    let t := ((if leaseShare (s.quad q).point = 0 then s else d.2).meter q e true).closeLease q reason
    let p := t.restPoint q
    (t.assign q p 3).settleRail (tileOfQuad q) old

/-- Every lease of a list of quads ends. -/
def State.endLeases (s : State) (qs : List Nat) (reason : Nat) : State := qs.foldl (fun t q => t.endLease q reason) s

/-- The quads with a valid lease, in ascending order. -/
def State.leasedQuads (s : State) : List Nat := (s.quads.filter (fun q => q.2.leased)).map (fun q => q.1)

/-- S[a] as SPRINT reads it, which never traps: a free value where the register is poisoned (R204, R357; log 50). -/
def State.readyS (s : State) (a : BitVec 6) : W64 × State :=
  if (s.regPoison (.s a)).isNone || a = 0 then (s.getS a, s) else (Config.freeValue s.draws, { s with draws := s.draws + 1 })

def execSprint (g : BitVec 4) (a b : BitVec 6) (s : State) : Out :=
  run (.sprint g a b) g .scalar s (fun t =>
    let w := t.readyS a
    let z := w.2.readyS b
    let e := min w.1.toNat 0xFFFFFFFF
    let d := min z.1.toNat 1000000
    let t := z.2
    let q := t.q
    if !(t.vf t.myVf).sprint || t.hub.meltRfz || e = 0 || d = 0 || (t.quad q).leased then .wait t 0x0F []
    else
      let id := t.hub.leaseId
      let stop := t.tstamp (tileOf t.cur.core) + BitVec.ofNat 64 (1000 * d)
      let u := t.modHub (fun h => { h with leaseId := if id = 0xFFFF then 1 else id + 1 })
      let v := u.modQuad q (fun x =>
        { x with lease := BitVec.ofNat 64 (e * 2 ^ 32 + 2 ^ 31 + id), leaseEnd := stop, acc2 := e * 1024000, used := 0,
                 holder := (t.core t.cur.core).hoop.map (fun h => ⟨t.cur.core, t.cur.ctx, h⟩) })
      .done (v.quadEvent q 0x12 (toLE 2 id ++ toLE 2 0 ++ toLE 4 e ++ toLE 8 stop.toNat ++ toLE 2 t.cur.core ++
        toLE 1 t.cur.ctx)))

def execUnsprint (g : BitVec 4) (s : State) : Out :=
  run (.unsprint g) g .scalar s (fun t => .done (t.endLease t.q 0))

/-- TSTAMP reaches LEASEEND (R359). -/
def execLeaseExpiry (q : Nat) (s : State) : Out :=
  if (s.quad q).leased && (s.quad q).leaseEnd.toNat ≤ (s.tstamp (tileOfQuad q)).toNat then .next (s.endLease q 1)
  else .next s

/-- A coolant alarm revokes every lease at once (R351). -/
def execCoolantAlarm (s : State) : Out :=
  .next ((s.packageEvent 0x17 (toLE 2 s.hub.frac ++ toLE 1 1)).endLeases s.leasedQuads 3)

/-! The budget tick (R350 to R356). -/

/-- The change of Q over a tick, (P - C) x 10 us, in units of 24 kJ / 2^24: the whole number below, or above where `up`
holds and it is not whole (R350; log 28). -/
def vatChange (p c : Nat) (up : Bool) : Int :=
  let n : Int := ((p : Int) - c) * 2 ^ 24
  n / 2400000000 + (if up && n % 2400000000 ≠ 0 then 1 else 0)

/-- The vat over one tick, from the power P and the heat C removed, in W. Which way the last unit rounds is a free value. -/
def State.tickVat (s0 : State) (p c : Nat) : State :=
  let d := s0.draw
  let s := if p = c then s0 else d.2
  let up := p ≠ c && (Config.freeValue d.1).getLsbD 0
  let t := s.modHub (fun h => { h with vat := min ((h.vat : Int) + vatChange p c up).toNat Config.vatFull })
  let f := t.hub.frac
  let rfz := if f ≤ 0x6666 then false else if f ≥ 0xE666 then true else s.hub.meltRfz
  let u := t.modHub (fun h => { h with meltRfz := rfz })
  if rfz = s.hub.meltRfz then u else u.packageEvent (if rfz then 0x14 else 0x15) (toLE 2 f)

/-- The measured energy of a quad over the tick, in uJ. -/
def tickEnergy (l : List (Nat × Nat)) (q : Nat) : Nat := (mapGet l q).getD 0

/-- The package's energy over a tick that no quad drew, shared among the VFs by their core cycles since the last tick
(R303), in 2^-10 uJ. -/
def State.shareEnergy (s : State) (p : Nat) (energy : List (Nat × Nat)) : State :=
  let shared := 1024 * (10 * p - (energy.map (fun e => e.2)).sum)
  let total := (s.hub.usage.map (fun u => u.2.ctxcyc - u.2.seen)).sum
  s.modHub (fun h => { h with usage := h.usage.map (fun u =>
    (u.1, { u.2 with energy := u.2.energy + shared * (u.2.ctxcyc - u.2.seen) / max total 1, seen := u.2.ctxcyc })) })

/-- Meters every quad: ENERGY of its VF, and the lease share (R303, R356). -/
def State.tickMeter (s : State) (p : Nat) (energy : List (Nat × Nat)) : State :=
  let t := energy.foldl (fun u e =>
    if (u.quad e.1).part.isSome then
      u.modUsage (u.quad e.1).vf (fun x => { x with energy := x.energy + (1024 * e.2 - (u.quad e.1).paid) })
    else u) (s.shareEnergy p energy)
  let v := t.leasedQuads.foldl (fun u q => u.meter q (tickEnergy energy q * leaseShare (u.quad q).point)) t
  { v with quads := v.quads.map (fun q => (q.1, { q.2 with paid := 0 })) }

/-- Leases that end at the tick, with the reason R359 takes first. -/
def State.tickEnds (s : State) (revoke : Bool) : State :=
  s.leasedQuads.foldl (fun t q =>
    if revoke then t.closeLease q 3
    else if (t.quad q).leaseEnd.toNat ≤ (t.tstamp (tileOfQuad q)).toNat then t.closeLease q 1
    else if (t.quad q).acc2 = 0 then t.closeLease q 2
    else t) s

/-- The sprint point for N valid leases (R353). -/
def sprintPoint (n : Nat) : Nat := if n * 35 ≤ 8000 then 5 else if n * 21 ≤ 8000 then 4 else 3

/-- The FDUTY of a quad after a tick (R354), which is 0 only for a quad without power. -/
def tickDuty (powered : Bool) (p old : Nat) : Nat :=
  if !powered then 0 else if p > 2800 then max (old - 2) 1 else if p ≥ 2700 then max old 1 else min (old + 1) 16

/-- A quad at a tick: idle or not, its point, its FDUTY. -/
def State.tickQuad (s : State) (l p q : Nat) : State :=
  let x := s.quad q
  let live := !x.ops.isEmpty || (quadCores q).any (fun n => (fromTo 0 16).any (fun k =>
    (s.ctx n k).st == .ready || (s.ctx n k).st == .held))
  let t := s.modQuad q (fun y => { y with idle := !(y.active || live), active := live })
  let target := if x.leased then l else t.restPoint q
  let why := if x.leased then 0 else t.restWhy q x.idle
  let u := t.assign q target why
  u.setDuty q (tickDuty x.part.isSome p x.fduty)

/-- The configuration that a tick takes up (R375). -/
def State.tickConfig (s : State) : State :=
  s.modHub (fun h =>
    { h with
      vfs := h.vfs.map (fun v => (v.1, { v.2 with sprint := v.2.record.spr })),
      parts := h.parts.map (fun p => (p.1, { p.2 with ceil := p.2.record.ceil })) })

/-- The rails take the steps that are due by a time, and holds that are over end (R355). -/
def State.moveRails (s : State) (due : Nat) : State :=
  (s.tiles.filter (fun t => t.2.phase ≠ .steady)).foldl (fun u t =>
    (fromTo 0 24).foldl (fun w _ => w.railStep t.1 due) (u.endHold t.1 due)) s

/-- A tick of the budget: the vat, revocation, metering, lease ends, points, FDUTY, rails. -/
def State.budgetTick (s : State) (power cold : Nat) (energy : List (Nat × Nat)) : State :=
  let s1 := (s.modHub (fun h => { h with ticked := h.now })).tickConfig.tickVat power cold
  let revoke := s1.hub.frac ≥ 0xF333
  let s2 := if revoke && !s.hub.revoked then s1.packageEvent 0x17 (toLE 2 s1.hub.frac ++ toLE 1 0) else s1
  let s3 := s2.modHub (fun h => { h with revoked := revoke })
  let s4 := ((s3.tickMeter power energy).moveRails s.hub.now).tickEnds revoke
  let l := sprintPoint s4.leasedQuads.length
  let votes := (fromTo 0 48).map (fun t => (t, s.vote t))
  let s5 := (fromTo 0 384).foldl (fun t q => t.tickQuad l power q) s4
  (votes.foldl (fun t v => t.settleRail v.1 v.2) s5).refillAll

/-- A tick is due: TSTAMP is a multiple of 10,000 at which none has run yet (R350). -/
def State.tickDue (s : State) : Bool := s.hub.now % 10000 = 0 && s.hub.ticked ≠ s.hub.now

def execBudgetTick (power cold : Nat) (energy : List (Nat × Nat)) (s : State) : Out :=
  .next (if s.tickDue then s.budgetTick power cold energy else s)

/-- A tick that is due, with amounts that the manual does not give (R350; log 15): P and C in W, each quad's energy in
uJ. -/
def State.freeTick (s : State) : State :=
  let n := s.draws
  let amount (i : Nat) : Nat := (Config.freeValue (n + i)).toNat % 2 ^ 16
  ({ s with draws := n + 386 }).budgetTick (amount 0) (amount 1) ((fromTo 0 384).map (fun q => (q, amount (2 + q))))

/-! What time brings about. -/

/-- Every lease whose end TSTAMP has reached ends (R359). -/
def State.expireLeases (s : State) : State :=
  (s.leasedQuads.filter (fun q => (s.quad q).leaseEnd.toNat ≤ (s.tstamp (tileOfQuad q)).toNat)).foldl
    (fun t q => t.endLease q 1) s

end Sys2Proof.Machine
end

