-- ==== Sys2Proof/Machine/Queues.lean ====
section
/-!
DEFINITION. Queues (R311 to R322, R327 to R330): mesh channels, pipes, task queues, the journal, system calls. LAUNCH
stands with the hub (Machine/Launch.lean).
-/

namespace Sys2Proof.Machine

/-! Mesh channels (R312 to R315). -/

/-- The head flit may be taken by context k (R312). -/
def Chan.openTo (c : Chan) (k : Nat) : Bool :=
  match c.flits with
  | f :: _ => f.tag ≥ 16 || f.tag == k
  | [] => false

/-- Re-inserts the contexts parked on a channel whose head flit is for them (R43, R315). -/
def State.chanWake (s : State) (n ch : Nat) : State :=
  (fromTo 0 16).foldl (fun t k =>
    if ((s.core n).chan ch).openTo k && (s.ctx n k).park = .recv ch then t.reinsert n k else t) s

/-- The fault of a route (R313). -/
def routeFault (c : Core) (r : W64) : Option (BitVec 6) :=
  if fld r 63 25 ≠ 0 || fld r 19 18 ≠ 0 || fld r 15 13 ≠ 0 || fld r 7 6 ≠ 0 || (r.getLsbD 24 && fld r 23 20 ≠ 0) then
    some 0x27
  else if fld r 5 0 ≥ hoopW c || fld r 12 8 ≥ hoopH c || (!r.getLsbD 24 && fld r 23 20 ≥ hoopN c) then some 0x0C
  else none

def execSend (g : BitVec 4) (a b : BitVec 6) (s : State) : Out :=
  run (.send g a b) g .scalar s (fun t =>
    let r := t.getS a
    let c := t.core t.cur.core
    match routeFault c r with
    | some x => .trap t x 0
    | none =>
      let n := coreAt (hoopOx c + fld r 5 0) (hoopOy c + fld r 12 8)
      let ch := (t.core n).chan (fld r 17 16)
      if ch.flits.length + ch.flight.length ≥ 16 then .wait t 0x07 []
      else t.device (.send g a b) [] (fun _ =>
        let scope := t.scopeHere (if n = t.cur.core then 0 else scopeOf 1 t.cur.core n)
        .done ((t.performAll t.cur.core t.cur.ctx).modChan n (fld r 17 16) (fun x =>
          { x with flight := x.flight ++ [⟨t.getS b, if r.getLsbD 24 then 16 else fld r 23 20, t.cur.core, scope⟩] }))))

/-- A flit reaches its channel (R312): the first of one sender; of which, where several senders have flits on their
way, is a free value (log 20). -/
def execFlitArrival (n ch : Nat) (s : State) : Out :=
  let c := (s.core n).chan ch
  let senders := (c.flight.map (fun f => f.sender)).dedup
  let d := s.draw
  let pick := if senders.length ≤ 1 then 0 else (Config.freeValue d.1).toNat % senders.length
  match senders[pick]? with
  | none => .next s
  | some w =>
    match findPos (fun f => f.sender == w) c.flight with
    | none => .next s
    | some i =>
      let s1 := (if senders.length ≤ 1 then s else d.2).modChan n ch (fun x =>
        { flits := x.flits ++ (x.flight[i]?).toList, flight := dropAt x.flight i })
      .next (s1.chanWake n ch)

def execRecv (g : BitVec 4) (d : BitVec 6) (c : BitVec 2) (s : State) : Out :=
  run (.recv g d c) g .scalar s (fun t =>
    let n := t.cur.core
    let ch := (t.core n).chan c.toNat
    match ch.flits with
    | f :: rest =>
      if ch.openTo t.cur.ctx then
        let u := (t.setS d f.payload).modChan n c.toNat (fun x => { x with flits := rest })
        .done ((u.chanWake n c.toNat).acquire n (u.scopeHere f.scope))
      else .wait t 0x06 []
    | [] => .wait t 0x06 [])

def execRecvPark (g : BitVec 4) (c : BitVec 2) (s : State) : Out :=
  run (.recvPark g c) g .scalar s (fun t =>
    .done (t.parkUnless (((t.core t.cur.core).chan c.toNat).openTo t.cur.ctx) (.recv c.toNat)))

/-! Pipes (R316, R317). -/

/-- The record a handle names in the issuer's partition (R316, R317). -/
def State.pipeRecord (s : State) (h : W64) : Option Nat :=
  let q := fld h 40 32
  if fld h 63 41 ≠ 0 || fld h 31 21 ≠ 0 || fld h 5 0 ≠ 0 || q ≥ 384 then none
  else match (s.quad q).part, (s.quad s.q).part with
    | some p, some r => if p = r then some (quadLocal q + 64 * fld h 20 6) else none
    | _, _ => none

/-- Word 1 of a pipe record is right, and the element area lies in the local memory (R317). -/
def pipeWordOk (w : Nat) : Bool :=
  bits w 63 28 = 0 && bits w 23 21 = 0 && bits w 2 0 = 0 && bits w 27 24 ≤ 12 &&
    bits w 20 3 * 8 + 8 * 2 ^ bits w 27 24 ≤ Memory.localSize

/-- Address of element i. -/
def pipeElem (record w i : Nat) : Nat :=
  quadLocal (localQuad record) + bits w 20 3 * 8 + 8 * (i % 2 ^ bits w 27 24)

/-- A write of 8 bytes of local memory by a queue operation. -/
def State.putLocal (s : State) (pa v : Nat) : State :=
  let g : Seg := ⟨pa, (localVa pa).toNat, toLE 8 v⟩
  (s.store (s.clip g)).noteWrite s.myVf [g]

/-- The first of some 8-byte words that holds poison, or a protected byte of a word to be written, with its cause. -/
def State.wordsFault (s : State) (reads writes : List Nat) : Option (BitVec 6 × W64) :=
  match writes.find? (fun a => !s.priv && (fromTo a 8).any (fun x => s.isProtected x)) with
  | some a => some (0x03, localVa a)
  | none => (reads.find? (fun a => s.poisoned a)).map (fun a => (0x3B, localVa a))

/-- Before a pipe operation: accesses of the issuer to the local memory of the record that are not performed yet are
performed, with every other, so that the pipe continues from the stored values (R228, R317). -/
def State.settlePipe (s : State) (a : Nat) : State :=
  let n := s.cur.core
  let k := s.cur.ctx
  let area : List (Nat × Nat) := [(quadLocal (localQuad a), Memory.localSize)]
  if (s.ctx n k).ldas.any (fun l => overlap l.reads area) || (s.pendingPosts n k).any (fun e => overlap (segRuns e.2.segs) area)
  then s.performEach n k else s

/-- A pipe operation at the record's bank, up to its effect: HEAD, TAIL and word 1. -/
def pipeOp (s0 : State) (h : W64) (rest : State → Nat → Nat → Nat → Nat → Res) : Res :=
  match s0.pipeRecord h with
  | none => .trap s0 0x27 0
  | some a =>
    let s := s0.settlePipe a
    match s.wordsFault [a, a + 8] [a] with
    | some (c, v) => .trap s c v
    | none =>
      let w := s.view (a + 8) 8
      if !pipeWordOk w then .trap s 0x27 0
      else rest s a w (bits (s.view a 8) 31 0) (bits (s.view a 8) 63 32)

def execPipeput (g : BitVec 4) (a b : BitVec 6) (s : State) : Out :=
  run (.pipeput g a b) g .scalar s (fun t0 =>
    pipeOp t0 (t0.getS a) (fun t r w head tail =>
      if (tail + 2 ^ 32 - head) % 2 ^ 32 = 2 ^ bits w 27 24 then .wait t 0x09 []
      else match t.wordsFault [] [pipeElem r w tail] with
        | some (c, v) => .trap t c v
        | none =>
          let u := (t.performAll t.cur.core t.cur.ctx).putLocal (pipeElem r w tail) (t.getS b).toNat
          .done (u.putLocal r (head + (tail + 1) % 2 ^ 32 * 2 ^ 32))))

def execPipeget (g : BitVec 4) (d a : BitVec 6) (s : State) : Out :=
  run (.pipeget g d a) g .scalar s (fun t0 =>
    pipeOp t0 (t0.getS a) (fun t r w head tail =>
      if tail = head then .wait t 0x08 []
      else match t.wordsFault [pipeElem r w head] [] with
        | some (c, v) => .trap t c v
        | none =>
          let v := t.view (pipeElem r w head) 8
          let u := t.putLocal r ((head + 1) % 2 ^ 32 + tail * 2 ^ 32)
          .done ((u.acquire u.cur.core 4).setS d (BitVec.ofNat 64 v))))

/-! Task queues (R46, R47, R318 to R322). -/

/-- The registers a live mask marks, ascending (R318). -/
def maskRegs (m : W64) : List Nat := (fromTo 0 64).filter (fun i => m.getLsbD i)

/-- The record of a PC and mask, its values read at issue (R46, R318). -/
def State.contOf (s : State) (pc : W64) (mask : W64) : Cont :=
  ⟨pc.extractLsb' 0 14, mask, (maskRegs mask).map (fun i => s.getS (BitVec.ofNat 6 i))⟩

/-- The lowest poisoned byte of the marked registers. -/
def State.maskPoison (s : State) (m : W64) : Option Nat :=
  if s.poison.isEmpty then none else ((maskRegs m).filterMap (fun i => s.regPoison (.s (BitVec.ofNat 6 i)))).min?

/-- SUSP and TASKPUSH from the check of the PC on, where the queue has room (R319, R320). -/
def State.buildCont (s : State) (b : BitVec 6) (rest : Nat → Hoop → Cont → Res) : Res :=
  let pc := s.getS b
  let m := setFld (s.getS (b + 1)) 0 0 0
  if fld pc 63 14 ≠ 0 then .trap s 0x05 pc
  else if (maskRegs m).length > 16 then .trap s 0x27 0
  else match s.maskPoison m with
    | some a => .trap s 0x3B (localVa a)
    | none =>
      match s.myHoop with
      | none => .wait s 0x0B []
      | some h =>
        match s.hoop h with
        | none => .wait s 0x0B []
        | some x => if x.pushed.length + x.reserved ≥ 256 then .wait s 0x0B [] else rest h x (s.contOf pc m)

def execSusp (g : BitVec 4) (a b : BitVec 6) (s : State) : Out :=
  run (.susp g a b) g .scalar s (fun t =>
    let va := t.getS a
    if fld va 63 56 ≠ 0 then .trap t 0x10 va
    else if va.toNat % 8 ≠ 0 then .trap t 0x04 va
    else t.buildCont b (fun h _ c =>
      let u := (t.performAll t.cur.core t.cur.ctx).modHoop h (fun x => { x with reserved := x.reserved + 1 })
      .done (u.modHub (fun y =>
        { y with susps := y.susps ++ [⟨h, t.cur.core, t.myVf, c, va, t.getS (a + 1), none⟩] }))))

/-- The TAG of a hoop. -/
def State.hoopTag (s : State) (h : Nat) : W64 := match s.hoop h with | some x => x.record.tag | none => 0

/-- The hub registers the n-th continuation handed to it (R319). -/
def execSuspRegistration (n : Nat) (s : State) : Out :=
  match s.hub.susps[n]? with
  | none => .next s
  | some u =>
    if u.registered.isSome then .next s
    else
      let va := u.counter.toNat
      let r : State × (Nat ⊕ BitVec 6) := match s.enginePlace (engineOf u.core u.vf) accR.global va with
        | (t, .inl pa) => if t.poisoned pa then (t, .inr 0x3B) else (t, .inl pa)
        | x => x
      let gone := r.1.modHub (fun y => { y with susps := dropAt y.susps n })
      let busy := match r.2 with
        | .inl pa => s.engineBusy (tileOf u.core) [(pa, 8)] 0
        | .inr _ => []
      if !busy.isEmpty then .next (s.engineAgain (tileOf u.core) busy)
      else match r.2 with
      | .inr c =>
        .next ((gone.modHoop u.hoop (fun x => { x with reserved := x.reserved - 1 })).faultRecord u.vf c va 0
          (s.hoopTag u.hoop) srcHub u.record.pc.toNat u.record.mask.toNat)
      | .inl pa =>
        if u.target.toNat ≤ r.1.view pa 8 then .next (gone.pushCont u.hoop u.record)
        else .next (r.1.modHub (fun y => { y with susps := modAt (fun x => { x with registered := some pa }) y.susps n }))

def execTaskpush (g : BitVec 4) (b : BitVec 6) (s : State) : Out :=
  run (.taskpush g b) g .scalar s (fun t =>
    t.buildCont b (fun h _ c =>
      .done (((t.performAll t.cur.core t.cur.ctx).modHoop h (fun x =>
        { x with frozen := if t.priv then false else x.frozen })).putCont h c)))

/-- Writes the values a record carries. -/
def State.carry (s : State) (c : Cont) : State :=
  ((maskRegs c.mask).zip c.values).foldl (fun t x => t.setS (BitVec.ofNat 6 x.1) x.2) s

/-- The PC at which a record is continued. A handler's PC has SLOT 0 (R372; log 23). -/
def State.taskPc (s : State) (pc : PCVal) : PCVal := if s.priv then BitVec.ofNat 14 (pcWord pc) else pc

/-- A word of the record at a place of a hoop's region is poisoned (R204). The region has no virtual address: TVAL of the
cause is 0 (log 78). -/
def State.contPoisoned (s : State) (x : Hoop) (place : Nat) : Bool :=
  !s.poison.isEmpty && (fromTo (s.taskRegion x + 144 * place) 144).any (fun a => s.poisoned a)

/-- TASKPOP (R321). Slot 0 of a handler is its own segment, which has landed (R107, R372; log 23). -/
def execTaskpop (g : BitVec 4) (s : State) : Out :=
  run (.taskpop g) g .scalar s (fun t0 =>
    let t := t0.modCx (fun x => { x with task := none })
    match t.myHoop with
    | none => .wait t 0x0A []
    | some h =>
      match t.hoop h with
      | none => .wait t 0x0A []
      | some x =>
        if x.frozen then .trap t 0x25 0
        else match x.pushed with
          | [] => .wait t 0x0A []
          | place :: rest =>
            let c := t.contAt x place
            if t.contPoisoned x place then .trap t 0x3B 0
            else if !(t.priv && pcSlot c.pc = 0) && !t.landed t.cur.core (pcSlot c.pc) then .trap t 0x06 (pcReg c.pc)
            else
              let u := (t.modHoop h (fun y => { y with pushed := rest })).carry c
              let v := u.modCx (fun y => { y with task := some (c.pc, c.mask) })
              .jump (v.acquire v.cur.core 4) (t.taskPc c.pc))

/-! The journal (R328). -/

def execJrnl (g : BitVec 4) (d a : BitVec 6) (s : State) : Out :=
  run (.jrnl g d a) g .scalar s (fun t =>
    let j := (t.getS a).toNat
    if j > 31 then .trap t 0x27 0
    else
      let n := t.cur.core
      let e := (t.core n).entry j
      let u := (t.setS d (BitVec.ofNat 64 e.word)).setS (d + 1) (if e.state = .free then 0 else e.va)
      .done (if e.state = .refused && e.owner = t.cur.ctx then u.modEntry n j (fun _ => JEntry.free) else u))

/-! System calls (R329, R330). -/

/-- Virtual and physical address of the issuing context's slot, where its VF has an area: in the frames pinned at the
VF's configuration, so that nothing is translated (R329). -/
def State.callSlot (s : State) : Option (Nat × Nat) :=
  let v := s.vf s.myVf
  let base := v.record.scva.toNat
  if base = 0 then none
  else
    let va := base + 64 * (16 * s.cur.core + s.cur.ctx)
    (mapGet v.scFrames (va / 4096 - base / 4096)).map (fun frame => (va, frame + va % 4096))

/-- A write of a slot at its home. -/
def State.putSlot (s : State) (va pa off : Nat) (bytes : List Byte) : State :=
  s.performSegs (tileOf s.cur.core) s.myVf [⟨pa + off, va + off, bytes⟩]

def execSyscNb (g : BitVec 4) (a b : BitVec 6) (s : State) : Out :=
  run (.syscNb g a b) g .scalar s (fun t =>
    match t.callSlot with
    | none => .trap t 0x26 0
    | some (va, pa) =>
      let call := t.getS a
      if fld call 62 32 ≠ 0 then .trap t 0x27 0
      else if (fromTo pa 8).any (fun x => t.poisoned x) then .trap t 0x3B (BitVec.ofNat 64 va)
      else
        let u := t.beforeHome t.cur.core t.cur.ctx [(pa, 64)] false
        let st := u.view pa 8
        if bits st 1 0 = 1 then .wait t 0x16 []
        else if bits st 1 0 ≠ 0 then .trap t 0x26 0
        else
          let args := (fromTo 0 4).flatMap (fun j => toLE 8 (t.getS (b + BitVec.ofNat 6 j)).toNat)
          let new := (bits st 63 32 + 1) % 2 ^ 32 * 2 ^ 32 + fld call 63 63 * 4 + 1
          let v := (u.performAll u.cur.core u.cur.ctx).putSlot va pa 0 (toLE 8 new ++ toLE 8 call.toNat ++ args)
          .done (v.wakeKey ⟨v.myVf, va, false, 0⟩))

def execSysc (g : BitVec 4) (d : BitVec 6) (s : State) : Out :=
  run (.sysc g d) g .scalar s (fun t =>
    match t.callSlot with
    | none => .trap t 0x26 0
    | some (va, pa) =>
      if (fromTo pa 64).any (fun x => t.poisoned x) then .trap t 0x3B (BitVec.ofNat 64 va)
      else
        let u := t.beforeHome t.cur.core t.cur.ctx [(pa, 64)] false
        let st := u.view pa 8
        if bits st 1 0 = 0 || (bits st 1 0 = 1 && bits st 2 2 = 0) then .trap t 0x26 0
        else if bits st 1 0 ≠ 3 then .wait t 0x17 []
        else
          let v := (u.setS d (BitVec.ofNat 64 (u.view (pa + 0x30) 8))).setS (d + 1)
            (BitVec.ofNat 64 (u.view (pa + 0x38) 8))
          .done ((v.putSlot va pa 0 (toLE 8 (st / 8 * 8))).acquire v.cur.core 4))

end Sys2Proof.Machine
end

