-- ==== Sys2Proof/Machine/Launch.lean ====
section
/-!
DEFINITION. A hoop from its launch to its end: LAUNCH, the launch window and launch packets (R323, R366, R367, R377),
dispatch (R52, R54), the loader (R399), the first state of its contexts (R32), EXIT (R117), the end and DONE (R50).
-/

namespace Sys2Proof.Machine

/-! LAUNCH (R323). -/

def execLaunch (g : BitVec 4) (a b : BitVec 6) (s : State) : Out :=
  run (.launch g a b) g .scalar s (fun t =>
    let va := t.getS a
    let q := (t.getS b).toNat
    if va.toNat % 64 ≠ 0 then .trap t 0x07 va
    else if q ≥ 8 then .trap t 0x28 0
    else match t.queue t.myVf q with
      | none => .trap t 0x28 0
      | some l =>
        t.reach (.launch g a b) accR [(va.toNat, 64)] 0x0C (fun u ps =>
          if l.count ≥ 64 then .wait u 0x0C []
          else u.deviceAt (.launch g a b) (ps.map (fun p => (p.pa, p.len))) 0 (fun _ =>
            u.readParts ps (fun w v =>
              let x := w.mapRead (launchOf v) 16
              if !w.launchOk v || (launchOf v).queue ≠ q || (launchOf v).vf ≠ w.myVf then .trap (u.mapRead (launchOf v) 16) 0x28 0
              else .done ((x.performAll x.cur.core x.cur.ctx).enqueue (launchOf v))))))

/-! The launch window (R366, R367, R368). -/

/-- A record of cause 0x28 to the VF a record names, or to VF 0 when that is out of range (R49); DETAIL holds where the
record stood. -/
def State.badLaunch (s : State) (vf detail : Nat) : State :=
  s.faultRecord (if vf < 384 then vf else 0) 0x28 0 0 0 srcHub detail 0

/-- Bit `line` of the CONSUMED word of a queue. -/
def State.setConsumed (s : State) (vf q line : Nat) (b : Bool) : State :=
  s.modPage vf (fun p =>
    let w := (mapGet p.consumed q).getD 0
    { p with consumed := mapSet p.consumed q (setFld w line line (if b then 1 else 0)) })

/-- Bytes off to off + len of a 512-bit line replaced by those of data. -/
def mergeLine (old data : BitVec 512) (off len : Nat) : BitVec 512 :=
  let m := (2 ^ (8 * len) - 1) * 2 ^ (8 * off)
  BitVec.ofNat 512 ((old.toNat &&& (2 ^ 512 - 1 - m % 2 ^ 512)) ||| (data.toNat &&& m))

/-- A record that arrives: into its queue, or held at `line` while the queue is full. -/
def State.arrives (s : State) (l : Launch) (line : Nat) : State :=
  match s.queue l.vf l.queue with
  | none => s
  | some q =>
    if q.count ≥ 64 || !q.held.isEmpty then s.modQueue l.vf l.queue (fun x => { x with held := x.held ++ [(line, l)] })
    else
      let t := s.enqueue l
      if line < 64 then t.setConsumed l.vf l.queue line true else t

/-- A host write to line i of launch queue q of VF v. -/
def execLaunchWindowWrite (v q i off len : Nat) (data : BitVec 512) (s : State) : Out :=
  match s.queue v q with
  | none => .next s
  | some x =>
    let last := off ≤ 0x3F && 0x3F < off + len
    let at' := 0x8000 * v + 0x1000 * q + 64 * i
    if last && x.held.any (fun h => h.1 = i) then .next (s.badLaunch v at')
    else
      let key := 512 * v + 64 * q + i
      let line := mergeLine ((mapGet s.hub.window key).getD 0) data off len
      let t := s.modHub (fun h => { h with window := mapSet h.window key line })
      if !last then .next t
      else
        let l := launchOf line.toNat
        let u := (t.setConsumed v q i false).mapRead l 16
        if u.launchOk line.toNat && l.queue = q && l.vf = v then .next (u.arrives l i)
        else .next ((u.badLaunch l.vf at').setConsumed v q i true)

/-! Launch packets (R377). -/

/-- Bytes sent or received for a VF on a UALink or Ultra Ethernet port (R303). -/
def State.chargeLink (s : State) (vf n : Nat) : State :=
  if vf < 384 then s.modUsage vf (fun u => { u with linkb := u.linkb + n }) else s

/-- A residency report, of 32 bytes, for a launch that came by packet. -/
def State.residency (s : State) (l : Launch) (status cause : Nat) : State :=
  match l.packet with
  | some p => (s.chargeLink l.vf 32).send (.residency p.port p.seq status cause l.vf s.hub.now l.tag)
  | none => s

/-- A packet of the same scheduler on the same port, arrived before, is still held. -/
def State.packetBefore (s : State) (p : Packet) : Bool :=
  s.hub.queues.any (fun q => q.2.held.any (fun h =>
    match h.2.packet with
    | some x => x.port = p.port && x.scheduler = p.scheduler && x.arrival < p.arrival
    | none => false))

/-- A launch packet, of 80 bytes: rejected, queued, or held. -/
def execLaunchPacket (port seq scheduler : Nat) (rec : BitVec 512) (s0 : State) : Out :=
  let p : Packet := ⟨port, seq, scheduler, s0.hub.order⟩
  let l := { launchOf rec.toNat with packet := some p }
  let s := s0.chargeLink l.vf 80
  if l.anyplace || !s.launchOk rec.toNat then .next (s.residency l 3 0x28)
  else
    let t := s.modHub (fun h => { h with order := h.order + 1 })
    match t.queue l.vf l.queue with
    | none => .next t
    | some q =>
      if q.count ≥ 64 || !q.held.isEmpty || t.packetBefore p then
        .next (t.modQueue l.vf l.queue (fun x => { x with held := x.held ++ [(64, l)] }))
      else .next ((t.enqueue l).residency l 1 0)

/-- The first held record of a queue enters it when there is room, a packet in the order of its scheduler. -/
def execHeldLaunchEnqueue (v q : Nat) (s : State) : Out :=
  match s.queue v q with
  | none => .next s
  | some x =>
    match x.held with
    | [] => .next s
    | (line, l) :: rest =>
      let early := match l.packet with | some p => s.packetBefore p | none => false
      if x.count ≥ 64 || early then .next s
      else
        let t := (s.modQueue v q (fun y => { y with held := rest })).enqueue l
        if line < 64 then .next (t.setConsumed v q line true) else .next (t.residency l 1 0)

/-! Service (R52 to R54). -/

/-- A charge is due: at each microsecond, once. -/
def State.chargeDue (s : State) : Bool := s.hub.now % 1000 = 0 && s.hub.charged ≠ s.hub.now

/-- The charge of one microsecond for every running hoop. -/
def State.chargeHoops (s : State) : State :=
  let t := s.hub.hoops.foldl (fun u x =>
    if x.2.runs then
      u.modQueue x.2.record.vf x.2.record.queue (fun q => { q with deficit := q.deficit - (x.2.record.w * x.2.record.h : Nat) })
    else u) (s.modHub (fun h => { h with charged := h.now }))
  t.refillAll

def execDeficitCharge (s : State) : Out := .next (if s.chargeDue then s.chargeHoops else s)

/-- The hoop takes its cores. -/
def State.takeCores (s : State) (h : Nat) (cores : List Nat) : State :=
  cores.foldl (fun t n => t.modCore n (fun c => { c with hoop := some h })) s

/-- The slice of a queue in ns. -/
def LQueue.sliceNs (q : LQueue) : Nat := 1000 * q.slice

/-- Places the head launch of queue q of VF v at an origin. A stopped hoop takes its cores again, and its contexts
return 1,000 ns later (R345). -/
def State.placeHead (s : State) (v q : Nat) (x : LQueue) (l : Launch) (o : Nat × Nat) : State :=
  let p := (s.vf v).record.part
  let t := (s.modQueue v q (fun y => { y with records := y.records.tail })).modPart p (fun y => { y with served := some (8 * v + q) })
  match l.hoop with
  | some h =>
    let u := (t.unshelve p h).takeCores h (rectCores o.1 o.2 l.w l.h)
    (u.modHoop h (fun y => { y with slice := x.sliceNs })).modPart p (fun y =>
      { y with gang := y.gang.map (fun g => { g with phase := .restoring, time := s.hub.now + 1000 }) })
  | none =>
    let h := t.hub.hoopNext
    let hoop : Hoop :=
      { state := .placed, record := l, ox := o.1, oy := o.2, pushed := [], reserved := 0, frozen := false,
        slice := x.sliceNs, sliceEnd := 0, doneDue := false, dbg := false, frozenDbg := false, crossed := [],
        records := [] }
    let u := (t.mapRead l (t.mapBytes l)).modHub (fun y => { y with hoops := mapSet y.hoops h hoop, hoopNext := h + 1 })
    (u.takeCores h hoop.cores).residency l 2 0

/-- The queue that the scan of R52 takes, with the place of its head launch. -/
def State.nextLaunch (s : State) (p : Nat) : Option (Nat × LQueue × Launch × Nat × Nat) :=
  let ring := s.ringOf p
  let k := ((s.part p).served).getD 3072
  let order : Map LQueue := ring.filter (fun x => k < x.1) ++ ring.filter (fun x => x.1 ≤ k)
  order.findSome? (fun x =>
    match x.2.records with
    | [] => none
    | l :: _ => if x.2.deficit > 0 && s.areaFor p l then (s.origin l (fun _ => false)).map (fun o => (x.1, x.2, l, o.1, o.2)) else none)

/-- Dispatch until no queue qualifies; `fuel` bounds the launches placed. -/
def State.dispatch (s : State) (p : Nat) : Nat → State
  | 0 => s
  | fuel + 1 =>
    let t := s.refill p
    match t.nextLaunch p with
    | some (key, x, l, o) => (t.placeHead (key / 8) (key % 8) x l o).dispatch p fuel
    | none => t

def execDispatch (p : Nat) (s : State) : Out :=
  .next (s.dispatch p (((s.ringOf p).map (fun x => x.2.records.length)).sum + 1))

/-! The loader and the first instruction (R32, R51, R399). -/

/-- Slot 0 of a core holds the segment of the record. -/
def State.segmentIn (s : State) (n : Nat) (l : Launch) : Bool :=
  let x := (s.core n).slot 0
  x.state == .landed && x.sva == l.code && x.vf == l.vf

/-- The 1,024 words of a segment, those that are not zero. -/
def State.segmentWords (s : State) (pa : Nat) : Map W32 :=
  ((fromTo 0 1024).map (fun i => (i, BitVec.ofNat 32 (s.view (pa + 4 * i) 4)))).filter (fun x => x.2 ≠ 0)
/-- Poisoned words of a segment. -/
def State.segmentPoison (s : State) (pa : Nat) : List Nat :=
  if s.poison.isEmpty then [] else (fromTo 0 1024).filter (fun i => s.poisoned (pa + 4 * i))

/-- A segment, read by an engine of the tile, lands in a slot of core n. -/
def State.landSegment (s : State) (n slot : Nat) (sva : W64) (vf pa : Nat) : State :=
  (s.engineRead (tileOf n) vf [(pa, 4096)]).modSlot n slot (fun _ => ⟨.landed, sva, vf, pa, s.segmentWords pa, s.segmentPoison pa⟩)

/-- The cores of a hoop whose quad is not fused are free, and those of a fused quad when it is unfused (R50). -/
def State.releaseCores (s : State) (cores : List Nat) : State :=
  cores.foldl (fun t n =>
    t.modCore n (fun c => { c with hoopO := 0, hoopS := 0, hoop := if (t.quad (quadOf n)).fused then c.hoop else none })) s

/-- The loader lands segment 0 on the cores of a placed hoop; a fault ends the launch (R399), and a read that meets a
retry is made again (R398). -/
def execSegmentZeroLoad (h : Nat) (s : State) : Out :=
  match s.hoop h with
  | none => .next s
  | some x =>
    let need := x.cores.filter (fun n => !s.segmentIn n x.record)
    match need with
    | [] => .next s
    | n :: _ =>
      if x.state ≠ .placed then .next s
      else
        let va := x.record.code.toNat
        let fail (t : State) (c : BitVec 6) : State :=
          let u := t.faultRecord x.record.vf c va 0 x.record.tag srcHub 0 0
          (u.releaseCores x.cores).modHub (fun y => { y with hoops := mapErase y.hoops h })
        match s.enginePlace (engineOf n x.record.vf) accX va with
        | (t, .inr c) => if c = 0x1B then .next t else .next (fail t c)
        | (t, .inl pa) =>
          let busy (m : Nat) : List (Nat × Nat) := t.engineBusy (tileOf m) [(pa, 4096)] 0
          if need.any (fun m => !(busy m).isEmpty) then .next (need.foldl (fun u m => u.engineAgain (tileOf m) (busy m)) t)
          else if (t.segmentPoison pa).isEmpty then
            .next (need.foldl (fun u m => u.landSegment m 0 x.record.code x.record.vf pa) t)
          else .next (fail t 0x3B)

/-- The 32 generators of a core, seeded (R132). -/
def State.seed (s : State) (n : Nat) : State :=
  let g := (fromTo 0 32).map (fun i =>
    (i, let r : W32 := (Config.random (s.draws + i)).extractLsb' 0 32; if r = 0 then 1 else r))
  { s with draws := s.draws + 32 }.modCore n (fun c => { c with gens := g })

/-- The workspace bytes that a launch sets (R32). -/
def firstBytes (ws s1 s2 s3 : Nat) : List (Nat × List Byte) :=
  [(ws + 8, toLE 8 s1 ++ toLE 8 s2 ++ toLE 8 s3), (ws + 0x1200, toLE 24 0 ++ toLE 4 0xFFFFFFFF ++ toLE 4 0),
   (ws + 0x1220, toLE 20 0), (ws + 0x1234, toLE 4 0 ++ toLE 8 1 ++ toLE 16 0),
   (ws + 0x1250, (fromTo 0 4).flatMap (fun _ => toLE 8 0x7F7F) ++ toLE 16 0)]

/-- Context k of core n of a hoop becomes READY (R32). -/
def State.startCtx (s : State) (x : Hoop) (n k : Nat) : State :=
  let l := x.record
  let old := s.ctx n k
  let t := s.setCtx n k { Ctx.reset (coreInQuad n) k with
    st := .ready, pc := BitVec.ofNat 14 l.entry, lastIssue := old.lastIssue, ops := old.ops, nputs := old.nputs }
  t.store (firstBytes (t.wsOf n k) l.args.toNat
    (((coreY n - x.oy) * l.w + (coreX n - x.ox)) * l.nctx + k) (l.w * l.h * l.nctx))

/-- An L1 is written back to its tile's slice and invalidated (R198). -/
def State.emptyL1 (s : State) (n : Nat) : State :=
  (((s.core n).l1.foldl (fun t x => if x.dirty then t.settleL2 (tileOf n) x.line else t) s).modCore n
    (fun c => { c with l1 := [] })).trimmed (tileOf n)
/-- The L1s of a quad, before they are fused and before they are apart again. -/
def State.emptyL1s (s : State) (q : Nat) : State := (quadCores q).foldl State.emptyL1 s

/-- A core of a hoop starts: its quad's L1s are fused where the launch says so (R198); hoop registers, generators,
contexts, which acquire the launch (R323). -/
def State.startCore (s0 : State) (x : Hoop) (n : Nat) : State :=
  let l := x.record
  let s := (if l.fuse && !(s0.quad (quadOf n)).fused then s0.emptyL1s (quadOf n) else s0).acquire n 4
  let t := (s.seed n).modCore n (fun c =>
    { c with hoopO := BitVec.ofNat 32 (x.oy * 256 + x.ox), hoopS := BitVec.ofNat 32 (l.nctx * 65536 + l.h * 256 + l.w) })
  let u := t.modQuad (quadOf n) (fun q => { q with active := true, fused := q.fused || l.fuse })
  (fromTo 0 l.nctx).foldl (fun v k => v.startCtx x n k) u

/-- Every context of a hoop becomes READY in one cycle, once segment 0 has landed on its cores and the table operations
that earlier hoops have left there are performed (R9, R51). -/
def execHoopStart (h : Nat) (s : State) : Out :=
  match s.hoop h with
  | none => .next s
  | some x =>
    if x.state = .placed && x.cores.all (fun n => s.segmentIn n x.record && (s.core n).ctxs.all (fun c => c.2.ops.isEmpty)) then
      let t := x.cores.foldl (fun u n => u.startCore x n) s
      .next (t.modHoop h (fun y => { y with state := .running, sliceEnd := s.hub.now + y.slice }))
    else .next s

/-! EXIT (R117) and the end of a hoop (R50, R331). -/

/-- A context of a hoop is gone from what other units keep of it: commands, release tags, scope misses, the wait table. -/
def State.forgetOf (s : State) (n k : Nat) (hoop : Option Nat) (tag : W64) : State :=
  let mine (a b : Nat) (h : Option Nat) : Bool := a == n && b == k && h == hoop
  let gone (c : MxCommand) : MxCommand := if mine c.core c.ctx c.hoop then { c with live := false } else c
  let t := s
  let u : State := { t with quads := t.quads.map (fun q => (q.1, { q.2 with inbox := q.2.inbox.map gone })) }
  u.modHub (fun h =>
    { h with
      commands := h.commands.map gone,
      returns := h.returns.map gone,
      tags := h.tags.map (fun x => (x.1, if mine x.2.core x.2.ctx x.2.hoop && x.2.gone.isNone then { x.2 with gone := some tag } else x.2)),
      misses := h.misses.map (fun x => if mine x.core x.ctx x.hoop && x.gone.isNone then { x with gone := some tag } else x),
      waits := h.waits.filter (fun e => !(e.waiter == Waiter.ctx n k && e.hoop == hoop)) })

/-- A context is gone, from the matrix operations of its quad too. -/
def State.forget (s : State) (n k : Nat) : State :=
  (s.modQuad (quadOf n) (fun q =>
    { q with ops := q.ops.map (fun o => if o.source = .ctx n k then { o with source := .gone n k } else o) })).forgetOf n k
    (s.core n).hoop (s.tagOf n)

/-- What a context leaves behind at its EXIT (R117). -/
def Ctx.exited (x : Ctx) : Ctx :=
  { x.dropTransient with
    st := .free, prior := .free, stopDebug := false, stopGang := false, stopTrap := false, park := .none, pend := [],
    resvLost := false, task := none,
    ops := x.ops.map (fun o => match o with | .cultld a b _ => .cultld a b false | y => y) }

/-- EXIT of context k of core n: everything in flight is performed or left to the units that have it; the causes that
are pending become records, and the owner's REFUSED journal entries are FREE (R327). -/
def State.exitCtx (s : State) (n k : Nat) : State :=
  let x := s.ctx n k
  let away := x.st = .away || x.prior = .away
  let s1 := s.modCtx n k Ctx.exited
  let s2 := if away then (s1.leaveService n k).setFlagsOf n k (setFld (s1.flagsOf n k) 23 23 0) else s1
  let s3 := x.pend.foldl (fun t p =>
    t.lostCause n k ((s.core n).entry p.tval.toNat) (s.quad (quadOf n)).vf (s.tagOf n) p.cause p.tval) s2
  let s4 := s3.performAll n k
  let s5 := s4.modCore n (fun c =>
    { c with
      copies := c.copies.map (fun y => (y.1, if y.2.ctx = k then { y.2 with live := false } else y.2)),
      journal := c.journal.map (fun y => (y.1, if y.2.state = .refused && y.2.owner = k then JEntry.free else y.2)) })
  s5.forget n k

/-- Neighbour writes of a hoop's contexts that are still under way land (R86). -/
def State.landAll (s : State) (n k : Nat) : Nat → State
  | 0 => s
  | m + 1 => (s.landNput n k).landAll n k m

/-- A hoop ends: flits for its cores are discarded, its task queue with it, its leases end, its cores are free; `pays`
says that DONE is added to. -/
def State.endHoop (s : State) (h : Nat) (x : Hoop) (pays : Bool) : State :=
  let cores := x.cores.filter (fun n => (s.core n).hoop = some h)
  let s1 := cores.foldl (fun t n =>
    ((fromTo 0 16).foldl (fun u k => u.landAll n k (u.ctx n k).nputs.length) t).modCore n (fun c => { c with chans := [] })) s
  let s2 := s1.modHub (fun y => { y with susps := y.susps.filter (fun u => u.hoop ≠ h) })
  let s3 := s2.endLeases (s2.leasedQuads.filter (fun q =>
    match (s2.quad q).holder with | some o => o.hoop = h | none => false)) 4
  let s4 := (s3.releaseCores cores).modHoop h (fun y =>
    { y with
      state := .ending, doneDue := pays && y.record.done ≠ 0, pushed := [], reserved := 0, frozen := false, crossed := [],
      records := [] })
  if pays && x.record.done ≠ 0 then s4 else s4.modHub (fun y => { y with hoops := mapErase y.hoops h })

/-- The contexts of a hoop that are on its cores. -/
def State.hoopCtxs (s : State) (h : Nat) (x : Hoop) : List (Nat × Nat) :=
  (x.cores.filter (fun n => (s.core n).hoop = some h)).flatMap (fun n => (fromTo 0 x.record.nctx).map (fun k => (n, k)))

/-- The hoop ends if its last context has executed EXIT. -/
def State.endIfLast (s : State) (n : Nat) : State :=
  match (s.core n).hoop with
  | none => s
  | some h =>
    match s.hoop h with
    | none => s
    | some x =>
      if x.state = .running && (s.hoopCtxs h x).all (fun c => (s.ctx c.1 c.2).st == .free) then s.endHoop h x true else s

def execExit (g : BitVec 4) (s : State) : Out :=
  run (.exit g) g .scalar s (fun t => .done ((t.exitCtx t.cur.core t.cur.ctx).endIfLast t.cur.core))

/-- DONE of a hoop whose copies have all added (R50): an engine access of the hub, made again while it meets a retry
(R398). -/
def execDoneAdd (h : Nat) (s : State) : Out :=
  match s.hoop h with
  | none => .next s
  | some x =>
    let busy := s.cores.any (fun c => c.2.copies.any (fun y => y.2.hoop = some h && !y.2.added))
    if x.state ≠ .ending || busy then .next s
    else
      let r := x.record
      let va := r.done.toNat
      let fail (t : State) (c : BitVec 6) : State := t.faultRecord r.vf c va 0 r.tag srcHub 0 0
      let asked := s.enginePlace (hubOf r.vf) accRW.global va
      let again : Bool := match asked.2 with | .inl pa => asked.1.homeBusy [(pa, 8)] 3 (some 48) | .inr _ => false
      if again then .next (match asked.2 with | .inl pa => asked.1.askAgain [lineOf pa] 3 (some 48) | .inr _ => s)
      else
      let t := match s.enginePlace (hubOf r.vf) accRW.global va with
        | (u, .inr c) => fail u c
        | (u, .inl pa) =>
          if (fromTo pa 8).any (fun y => u.isProtected y) then fail u 0x03
          else if u.poisoned pa then fail u 0x3B
          else
            let z := u.counterAdd 48 r.vf pa va 1
            if z.2 then z.1 else fail z.1 0x19
      .next (t.modHub (fun y => { y with hoops := mapErase y.hoops h }))

/-- The L1s of a fused quad are apart again, and its cores are free (R50, R198). -/
def execL1UnfusionComplete (q : Nat) (s : State) : Out :=
  let ended (n : Nat) : Bool :=
    match (s.core n).hoop with
    | some h => (match s.hoop h with | some x => x.state = .ending | none => true)
    | none => true
  if (s.quad q).fused && (quadCores q).all ended then
    .next ((quadCores q).foldl (fun t n => t.modCore n (fun c => { c with hoop := none }))
      ((s.emptyL1s q).modQuad q (fun x => { x with fused := false })))
  else .next s

/-- A hoop leaves a gang switch: what was saved of it is dropped, the causes pending in it recorded, and other units keep
nothing of its contexts. -/
def State.dropSaved (s : State) (h : Nat) (x : Hoop) : State :=
  let p := (s.vf x.record.vf).record.part
  match ((s.part p).gang.toList ++ (s.part p).shelf).find? (fun g => g.hoops.contains h) with
  | none => s
  | some g =>
      let mine := g.cores.filter (fun c => x.cores.contains c.1)
      let s1 := mine.foldl (fun t c => c.2.ctxs.foldl (fun u k =>
        k.2.pend.foldl (fun v e =>
          v.lostCause c.1 k.1 (c.2.entry e.tval.toNat) x.record.vf x.record.tag e.cause e.tval) (u.forgetOf c.1 k.1 (some h) x.record.tag)) t) s
      s1.modPart p (fun y =>
        if g.slice = some h then
          { y with gang := if y.gang = some g then none else y.gang, shelf := y.shelf.filter (fun z => z.slice ≠ some h) }
        else
          { y with gang := some { g with
              hoops := g.hoops.filter (fun z => z ≠ h), cores := g.cores.filter (fun c => !x.cores.contains c.1) } })

/-- A hoop's contexts become FREE as at EXIT and the hoop ends. -/
def State.stopHoop (s : State) (h : Nat) (x : Hoop) (pays : Bool) : State :=
  let s1 := (s.hoopCtxs h x).foldl (fun t c => if (t.ctx c.1 c.2).st = .free then t else t.exitCtx c.1 c.2) s
  let s2 := (s1.dropSaved h x).modQueue x.record.vf x.record.queue (fun q =>
    { q with records := q.records.filter (fun l => l.hoop ≠ some h) })
  s2.endHoop h x pays

/-- The hypervisor ends a hoop: a record of cause 0x29 (R332). -/
def execHoopAbort (h : Nat) (s : State) : Out :=
  match s.hoop h with
  | none => .next s
  | some x =>
    if x.state = .ending then .next s
    else .next ((s.faultRecord x.record.vf 0x29 0 0 x.record.tag srcHub 0 0).stopHoop h x (x.state ≠ .placed))

end Sys2Proof.Machine
end

