-- ==== Sys2Proof/Machine/Tables.lean ====
section
/-!
DEFINITION. Cultures and tables: the controller's check of an image (R266), CULTLD, RANGESET and TLBINV with their
performance (R272 to R275), and the events of a home agent (R263, R279).
-/

namespace Sys2Proof.Machine

/-! An image and its check (R265, R266). -/

/-- State word s of a culture. -/
def Culture.stateWord (c : Culture) (s : Nat) : BitVec 16 := (mapGet c.states s).getD 0
/-- Action word (s, e). -/
def Culture.word (c : Culture) (s e : Nat) : W32 := (mapGet c.actions (16 * s + e)).getD 0
def Culture.merge (c : Culture) (s : Nat) : Bool := (c.stateWord s).getLsbD 15
def Culture.trans (c : Culture) (s : Nat) : Bool := (c.stateWord s).getLsbD 14
def Culture.home (c : Culture) (s : Nat) : Bool := (c.stateWord s).getLsbD 13
/-- NEXT of an action word (R264). -/
def actNext (w : W32) : Nat := bits w.toNat 31 28
/-- The state that (s, e) leads to. -/
def Culture.next (c : Culture) (s e : Nat) : Nat := actNext (c.word s e)
def actShr (w : W32) : Nat := bits w.toNat 15 14
def actGrs (w : W32) : Bool := actBit w 27
def actGre (w : W32) : Bool := actBit w 26
def actInv (w : W32) : Bool := actBit w 25
def actRcl (w : W32) : Bool := actBit w 24
def actFwd (w : W32) : Bool := actBit w 23
def actUpd (w : W32) : Bool := actBit w 22
def actCmp (w : W32) : Bool := actBit w 21
def actRty (w : W32) : Bool := actBit w 20
def actOwnr (w : W32) : Bool := actBit w 13
def actWait (w : W32) : Bool := actBit w 12

/-- Events of network 2 (R263). -/
def onNet2 (e : Nat) : Bool := e = 8 || e = 9 || e = 14 || e = 15

/-- The culture that 1,088 bytes, read as a number, hold. -/
def imageOf (owner v : Nat) : Culture :=
  let b (off n : Nat) : Nat := v / 256 ^ off % 256 ^ n
  { state := .loaded, owner := owner, ns := b 0 1, name := BitVec.ofNat 64 (b 8 8),
    states := (fromTo 0 16).map (fun s => (s, BitVec.ofNat 16 (b (0x10 + 2 * s) 2))),
    actions := (fromTo 0 256).map (fun i => (i, BitVec.ofNat 32 (b (0x40 + 4 * i) 4))) }

/-- Places (state, event) below a number of states. -/
def places (ns : Nat) : List (Nat × Nat) := (fromTo 0 ns).flatMap (fun s => (fromTo 0 16).map (fun e => (s, e)))

/-- Check 1, on the bytes and on each word. -/
def check1 (v : Nat) (c : Culture) : Option (Nat × Nat) :=
  let b (off n : Nat) : Nat := v / 256 ^ off % 256 ^ n
  if c.ns = 0 || c.ns > 16 || b 1 7 ≠ 0 || b 0x30 16 ≠ 0 || !c.home 0 || c.trans 0 then some (0, 0)
  else match (fromTo 0 16).find? (fun s =>
      (if s < c.ns then bits (c.stateWord s).toNat 12 0 ≠ 0 else c.stateWord s ≠ 0)) with
    | some s => some (s, 0)
    | none => (places 16).find? (fun p =>
        let w := c.word p.1 p.2
        if p.1 < c.ns then bits w.toNat 11 1 ≠ 0 || actNext w ≥ c.ns || dact w > 8 else w ≠ 0)

def check2 (c : Culture) : Option (Nat × Nat) := (places c.ns).find? (fun p => !(c.word p.1 p.2).getLsbD 0)

/-- Case (c) of check 3 holds of a TRANS state. -/
def Culture.waitGrants (c : Culture) (x : Nat) : Bool :=
  (places c.ns).all (fun p =>
    let w := c.word p.1 p.2
    if actNext w ≠ x then true
    else if p.1 ≠ x then actShr w = 2 && actOwnr w
    else p.2 ≥ 14 || (actShr w = 0 && !actOwnr w))

/-- Check 3: case (c) for every TRANS state whose ACK or DATA action grants; else cases (a) and (b). -/
def check3 (c : Culture) : Option (Nat × Nat) :=
  (places c.ns).find? (fun p =>
    let w := c.word p.1 p.2
    let grants := actGre w || actOwnr w
    let fromWait := p.2 ≥ 14 && c.trans p.1
    (grants && fromWait && !c.waitGrants p.1) ||
      (grants && !c.merge (actNext w) && !c.home p.1 && !(actShr w = 2 && actWait w && (actInv w || actRcl w)) && !fromWait))

/-- ACK and DATA lead out of the TRANS states within n steps. -/
def Culture.leaves (c : Culture) : Nat → Nat → Bool
  | 0, s => !c.trans s
  | n + 1, s => !c.trans s || (c.leaves n (c.next s 14) && c.leaves n (c.next s 15))

def check4 (c : Culture) : Option (Nat × Nat) :=
  (places c.ns).find? (fun p =>
    let w := c.word p.1 p.2
    (c.trans p.1 && !onNet2 p.2 && !actRty w) || (c.trans p.1 && p.2 ≥ 14 && !c.leaves 3 (actNext w)) ||
      (actWait w && !c.trans (actNext w)))

def check5 (c : Culture) : Option (Nat × Nat) :=
  (places c.ns).find? (fun p =>
    let w := c.word p.1 p.2
    onNet2 p.2 && (actInv w || actRcl w || actFwd w || actUpd w))

/-- Check 6; the retries of RD, HRD and ACQ in a wait are check 4's. In a TRANS state data go out only at the ACK or DATA
that leads out of the wait; a CMP at EVC or WB, which answers a participant's notice, carries none (DEDUCED, log 44). -/
def check6 (c : Culture) : Option (Nat × Nat) :=
  (places c.ns).find? (fun p =>
    let w := c.word p.1 p.2
    let sends := actGrs w || actGre w || actCmp w
    ((actInv w || actRcl w || actUpd w) && (!actWait w || sends)) ||
      (c.trans p.1 && !(p.2 ≥ 14 && !c.trans (actNext w)) && (actGrs w || actGre w || (actCmp w && p.2 ≠ 8 && p.2 ≠ 9))))

/-- The states that an action with GRE or OWNR leads to, directly or through TRANS states only, in n rounds. -/
def Culture.granted (c : Culture) : Nat → List Nat
  | 0 => (((places c.ns).filter (fun p => actGre (c.word p.1 p.2) || actOwnr (c.word p.1 p.2))).map (fun p => c.next p.1 p.2)).dedup
  | n + 1 =>
    let l := c.granted n
    (l ++ (l.filter c.trans).flatMap (fun x => [c.next x 14, c.next x 15])).dedup
/-- The writable states (check 7). -/
def Culture.writables (c : Culture) : List Nat := (fromTo 0 c.ns).filter c.merge ++ c.granted 16

/-- What a path of check 7 has met: an unanswered RCL, an INV or RCL, the write-back of (c), the last SHR. -/
structure FlushPath where
  owed : Bool
  hit  : Bool
  back : Bool
  shr  : Nat

/-- One action of a path. -/
def FlushPath.step (f : FlushPath) (w : W32) (data : Bool) : FlushPath :=
  { owed := (f.owed && !data) || actRcl w,
    hit := f.hit || actInv w || actRcl w,
    back := f.back || (data && f.owed && dact w = 5) || dact w = 4 || dact w = 6,
    shr := actShr w }

/-- A path from a state on passes (a) to (c); `start` is S. -/
def Culture.flushed (c : Culture) (start : Nat) (writable : Bool) : Nat → Nat → FlushPath → Bool
  | 0, _, _ => false
  | n + 1, s, f =>
    if c.trans s then
      let e := if f.owed then 15 else 14
      c.flushed start writable n (c.next s e) (f.step (c.word s e) f.owed)
    else c.home s && (c.home start || (f.hit && f.shr = 3)) && (!writable || f.back)

def check7 (c : Culture) : Option (Nat × Nat) :=
  let wr := c.writables
  (places c.ns).find? (fun p =>
    (p.2 = 12 || p.2 = 13) && !c.trans p.1 &&
      !c.flushed p.1 (wr.contains p.1) 8 (c.next p.1 p.2) (FlushPath.step ⟨false, false, false, 0⟩ (c.word p.1 p.2) false))

/-- The first check that an image fails, with its place (R266). -/
def imageFault (v : Nat) (c : Culture) : Option (Nat × Nat × Nat) :=
  ([(1, check1 v c), (2, check2 c), (3, check3 c), (4, check4 c), (5, check5 c), (6, check6 c), (7, check7 c)]).findSome?
    (fun x => x.2.map (fun p => (x.1, p.1, p.2)))

/-! CULTLD (R273). -/

def Culture.slot (h : Hub) (k : Nat) : Option Culture := mapGet h.cultures k

/-- The words of range entries that count: those in force, and those of a RANGESET not yet performed (R274). -/
def State.rangeWords (s : State) : List (Nat × W64 × W64) :=
  s.hub.ranges.map (fun e => (e.1, e.2.w0, e.2.w1)) ++
    s.allCtxs.flatMap (fun c => c.2.2.ops.filterMap (fun o => match o with | .rangeset e a b => some (e, a, b) | _ => none))

def execCultld (g : BitVec 4) (a b : BitVec 6) (s : State) : Out :=
  run (.cultld g a b) g .scalar s (fun t =>
    let va := t.getS a
    let k := (t.getS b).toNat
    if !t.priv then .trap t 0x03 0
    else if k ≥ 16 || k < 7 || va.toNat % 64 ≠ 0 then .trap t 0x1A 0
    else
      let old := Culture.slot t.hub k
      let is (st : CultState) : Bool := match old with | some c => c.state == st | none => false
      let owner := match old with | some c => c.owner | none => t.myVf
      if is .loading then .trap t 0x1A 0
      else if is .loaded && owner ≠ t.myVf then .trap t 0x03 0
      else t.reach (.cultld g a b) accR (splitPages va.toNat 1088) 0x12 (fun u ps =>
        if u.rangeWords.any (fun e => e.2.1.getLsbD 63 && fld e.2.1 55 52 = k) then .wait u 0x18 []
        else
          let runs := ps.map (fun p => (p.pa, p.len))
          let w := u.beforeHome u.cur.core u.cur.ctx runs false
          let c : Culture := { state := .loading, owner := w.myVf, ns := 0, name := 0, states := [], actions := [] }
          .done ((w.modHub (fun h => { h with cultures := mapSet h.cultures k c })).modCx (fun x =>
            { x with ops := x.ops ++ [.cultld k runs true] }))))

/-- Removes the first operation of a context that `hit` picks. -/
def State.dropOp (s : State) (n k : Nat) (hit : CtxOp → Bool) : State :=
  s.modCtx n k (fun x => { x with ops := (findPos hit x.ops).elim x.ops (fun i => dropAt x.ops i) })

def CtxOp.isCultld : CtxOp → Bool | .cultld _ _ _ => true | _ => false
def CtxOp.isRangeset : CtxOp → Bool | .rangeset _ _ _ => true | _ => false
def CtxOp.isTlbinv : CtxOp → Bool | .tlbinv _ _ _ _ _ _ => true | _ => false

/-- The controller has read and checked the oldest image of a context: loaded, or rejected with cause 0x18. Poison in
it is an engine's (R204): a record, and the slot is EMPTY. -/
def State.cultureChecked (s : State) (n k : Nat) : State :=
  match (s.ctx n k).ops.find? CtxOp.isCultld with
  | some (.cultld slot runs live) =>
    let t := s.dropOp n k CtxOp.isCultld
    let vf := match Culture.slot s.hub slot with | some c => c.owner | none => 0
    let emptied := t.modHub (fun h => { h with cultures := mapErase h.cultures slot })
    if runs.any (fun r => (fromTo r.1 r.2).any (fun a => s.poisoned a)) then
      emptied.faultRecord vf 0x3B 0 0 (s.tagOf n) srcHub 0 0
    else
      let v := leNat (runs.flatMap (fun r => (fromTo r.1 r.2).map s.look))
      let c := imageOf vf v
      match imageFault v c with
      | none => t.modHub (fun h => { h with cultures := mapSet h.cultures slot c })
      | some (check, st, e) =>
        let tval := check * 2 ^ 56 + st * 256 + e
        emptied.pendCause n k 0x18 (BitVec.ofNat 64 tval) live
  | _ => s
def execCultureCheckComplete (n k : Nat) (s : State) : Out := .next (s.cultureChecked n k)

/-! RANGESET (R270, R271, R274). -/

/-- Reserved bits of the two words of an entry. -/
def rangeReserved (w0 w1 : W64) : Bool :=
  fld w0 62 56 ≠ 0 || fld w0 11 9 ≠ 0 || fld w1 63 52 ≠ 0 || fld w1 11 0 ≠ 0

/-- A range of frames lies wholly in HBM or wholly in host memory. -/
def rangeInside (base limit : Nat) : Bool :=
  (isHbm (4096 * base) && isHbm (4096 * limit)) || (isHost (4096 * base) && isHost (4096 * limit))

/-- A culture slot may be named by an entry of a VF (R271). -/
def State.culturable (s : State) (vf k : Nat) : Bool :=
  k < 7 || (match Culture.slot s.hub k with | some c => c.state = .loaded && c.owner = vf | none => false)

def execRangeset (g : BitVec 4) (a b : BitVec 6) (s : State) : Out :=
  run (.rangeset g a b) g .scalar s (fun t =>
    let e := (t.getS a).toNat
    let w0 := t.getS b
    let w1 := t.getS (b + 1)
    let base := fld w0 51 12
    let limit := fld w1 51 12
    if !t.priv then .trap t 0x03 0
    else if e ≥ 256 then .trap t 0x1A 0
    else if !(match mapGet t.hub.ranges e with | some x => x.vf = some t.myVf | none => false) then .trap t 0x03 0
    else if rangeReserved w0 w1 then .trap t 0x1A 0
    else if w0.getLsbD 63 && (fld w0 8 0 ≠ t.myVf || base > limit || !rangeInside base limit ||
        t.rangeWords.any (fun r => r.1 ≠ e && r.2.1.getLsbD 63 && fld r.2.1 51 12 ≤ limit && base ≤ fld r.2.2 51 12) ||
        !t.culturable t.myVf (fld w0 55 52)) then .trap t 0x1A 0
    else if t.allCtxs.any (fun c => c.2.2.ops.any (fun o => match o with | .rangeset x _ _ => x = e | _ => false)) then
      .wait t 0x1B []
    else .done ((t.modHub (fun h => { h with ranges := (mapGet h.ranges e).elim h.ranges (fun x =>
        mapSet h.ranges e { x with next := some (w0, w1), moved := [] }) })).modCx (fun x => { x with ops := x.ops ++ [.rangeset e w0 w1] })))

/-- Lines of a frame range that have a directory entry. -/
def State.linesIn (s : State) (base limit : Nat) : List Nat :=
  (s.hub.dir.filter (fun e => 64 * base ≤ e.1 && e.1 < 64 * (limit + 1))).map (fun e => e.1)

/-- FLIP at a line's home, until the line is in a HOME state (R266 check 7). -/
def State.flipLine (s : State) (line : Nat) : State := s.homeServe line 13 none

/-- A line in a HOME state, in which no wait runs. -/
def State.isHome (s : State) (line : Nat) : Bool :=
  let slot := s.rangeSlot (64 * line)
  let st := (s.dirOf line).state
  !s.transient slot st &&
    (if slot < 7 then st = 0 || (slot = 3 && st = 2)
     else match Culture.slot s.hub slot with | some c => c.home st | none => true)

/-- The entry with a RANGESET not yet performed whose old or new range holds a line that has not changed over. -/
def State.moving (s : State) (line : Nat) : Option Nat :=
  (s.hub.ranges.find? (fun e => match e.2.next with
    | some n => !e.2.moved.contains line && (coversLine (e.2.w0, e.2.w1) line || coversLine n line)
    | none => false)).map (fun e => e.1)

/-- A line takes the culture of the new words of an entry, afresh (R274). -/
def State.moveLine (s : State) (e line : Nat) : State :=
  s.modHub (fun h => { h with
    dir := mapErase h.dir line,
    ranges := (mapGet h.ranges e).elim h.ranges (fun x => mapSet h.ranges e { x with moved := line :: x.moved }) })

/-- A line leaves its culture through FLIP. -/
def State.flipOut (s : State) (e line : Nat) : State := (s.flipLine line).moveLine e line

/-- The lines of the old and the new range of an entry that have not changed over. -/
def State.toMove (s : State) (e : Nat) : List Nat :=
  match mapGet s.hub.ranges e with
  | some x =>
    let lines (w : W64 × W64) : List Nat := if w.1.getLsbD 63 then s.linesIn (fld w.1 51 12) (fld w.2 51 12) else []
    ((lines (x.w0, x.w1) ++ (match x.next with | some n => lines n | none => [])).dedup).filter (fun l => !x.moved.contains l)
  | none => []

/-- An entry takes new words, each line of the old and of the new range having changed over (R274). -/
def State.setRange (s : State) (e : Nat) (w0 w1 : W64) (vf : Option Nat) : State :=
  let t := s.modHub (fun h => { h with ranges := (mapGet h.ranges e).elim h.ranges (fun x =>
    mapSet h.ranges e { x with next := some (w0, w1) }) })
  ((t.toMove e).foldl (fun u l => u.flipOut e l) t).modHub (fun h =>
    { h with ranges := mapSet h.ranges e ⟨w0, w1, vf, none, []⟩ })

/-- Every line has changed over: those that have not yet, do, once no context reserves them (R40, R274). -/
def execRangesetPerformed (n k : Nat) (s : State) : Out :=
  match (s.ctx n k).ops.find? CtxOp.isRangeset with
  | some (.rangeset e w0 w1) =>
    let vf := match mapGet s.hub.ranges e with | some x => x.vf | none => none
    if (s.toMove e).any (fun l => s.deferred l 13 none) then .next s
    else .next ((s.dropOp n k CtxOp.isRangeset).setRange e w0 w1 vf)
  | _ => .next s

/-! TLBINV (R275). -/

def execTlbinv (g : BitVec 4) (a b : BitVec 6) (s : State) : Out :=
  run (.tlbinv g a b) g .scalar s (fun t =>
    let va := t.getS a
    let d := t.getS b
    let all := fld d 1 0 = 1
    let flip := d.getLsbD 2
    if !t.priv then .trap t 0x03 0
    else if fld d 63 4 ≠ 0 || fld d 1 0 ≥ 2 || (flip && all) then .trap t 0x1A 0
    else
      let go (u : State) (frame : Option (Nat × Nat)) : Res :=
        if u.cx.ops.any CtxOp.isTlbinv then .wait u 0x1C []
        else .done (u.modCx (fun x => { x with ops := x.ops ++ [.tlbinv u.myVf all flip (d.getLsbD 3) va frame] }))
      if !flip then go t none
      else
        let pieces := [(va.toNat, 1)]
        let r := t.xlate t.me accR pieces
        let c := t.discretion4 (.tlbinv g a b) t.me [va.toNat]
        if c ≠ 0 then .wait (t.walking t.me c [va.toNat] r.1) c []
        else match r.2.fault with
          | some (cause, x) => .trap r.1 cause (BitVec.ofNat 64 x)
          | none =>
            go r.1 (if !walksFor va.toNat then none
              else match (r.1.lookup r.1.me va.toNat).2 with
                | .leaf e => some (e.frame, e.size)
                | _ => none))

/-- The translations of a VF that go: all, or those of the page that holds an address. -/
def TlbEntry.kept (e : TlbEntry) (vf va : Nat) (all : Bool) : Bool :=
  !(e.vf == vf && (all || (e.base ≤ va && va < e.base + e.size)))

/-- What was accepted under a translation of the VF is performed: accesses of its contexts, images that CULTLD has the
controller read, fills of fetch slots, matrix operations, fills of code slots; line fills that only PREF or a landing
reservation has asked for are dropped (R219, R275, R276). -/
def State.settleVf (s : State) (vf : Nat) : State :=
  let quads := (s.quads.filter (fun q => q.2.vf = vf || q.2.ops.any (fun o => o.vf = vf))).map (fun q => q.1)
  let cores := (s.cores.filter (fun c => (s.quad (quadOf c.1)).vf = vf)).map (fun c => c.1)
  let s1 := cores.foldl (fun t n => (fromTo 0 16).foldl (fun u k =>
    ((u.ctx n k).ops.filter CtxOp.isCultld).foldl (fun v _ => v.cultureChecked n k) (u.performEach n k))
    (t.modCore n (fun c => { c with fills := [] }))) s
  let s0 := quads.foldl (fun t q => (t.quad q).slots.foldl (fun u f => u.fillPinned q f.1 f.2) t) s1
  let s2 := quads.foldl (fun t q => t.drainMatrix q (t.quad q).ops.length) s0
  s2.cores.foldl (fun t c => c.2.slots.foldl (fun u x =>
    if x.2.state = .filling && x.2.vf = vf then u.landSegment c.1 x.1 x.2.sva vf x.2.frame else u) t) s2

/-- An upper-level entry stays in the walk cache: it is another VF's, or leads to other pages. -/
def WalkEntry.kept (e : WalkEntry) (vf va : Nat) (all : Bool) : Bool :=
  !(e.vf == vf && (all || e.index == prefixOf e.low va))

def execTlbinvPerformed (n k : Nat) (s : State) : Out :=
  match (s.ctx n k).ops.find? CtxOp.isTlbinv with
  | some (.tlbinv vf all flip note va frame) =>
    let flips := match (if flip then frame else none) with
      | some (f, size) => s.linesIn (f / 4096) ((f + size - 1) / 4096)
      | none => []
    if flips.any (fun l => s.deferred l 13 none) then .next s
    else
    let s1 := (s.dropOp n k CtxOp.isTlbinv).settleVf vf
    let s2 : State :=
      { s1 with
        cores := s1.cores.map (fun c => (c.1, { c.2 with tlb := c.2.tlb.filter (fun e => e.kept vf va.toNat all) })),
        tiles := s1.tiles.map (fun t => (t.1, { t.2 with tlb := t.2.tlb.filter (fun e => e.kept vf va.toNat all) })),
        hub := { s1.hub with walkCache := s1.hub.walkCache.filter (fun e => e.kept vf va.toNat all) } }
    let s3 := match (if flip then frame else none) with
      | some (f, size) => (s2.linesIn (f / 4096) ((f + size - 1) / 4096)).foldl (fun t l => t.flipLine l) s2
      | none => s2
    .next (if note then s3.faultRecord vf 0x1C (if all then 0 else va.toNat / 4096 * 4096) 0 (s.tagOf n) srcHub 0 0
      else s3)
  | _ => .next s

/-! What leaves with a VF (R9, R202, R271). -/

/-- The accepted operations of a context are performed, oldest first, as far as home agents let them (R40). -/
def State.ctxOps (s : State) (n k : Nat) : Nat → State
  | 0 => s
  | m + 1 =>
    let one (o : Out) : State := match o with | .next t => t | _ => s
    match (s.ctx n k).ops with
    | [] => s
    | .flush l _ _ :: _ => (if s.flushBusy l none then s else s.flushThose n k (fun x _ => x == l)).ctxOps n k m
    | .cultld _ _ _ :: _ => (s.cultureChecked n k).ctxOps n k m
    | .rangeset _ _ _ :: _ => (one (execRangesetPerformed n k s)).ctxOps n k m
    | .tlbinv _ _ _ _ _ _ :: _ => (one (execTlbinvPerformed n k s)).ctxOps n k m
/-- Those of every context of a quad. -/
def State.quadOps (s : State) (q : Nat) : State :=
  (quadCores q).foldl (fun t n => (fromTo 0 16).foldl (fun u k => u.ctxOps n k (u.ctx n k).ops.length) t) s
/-- None is left. -/
def State.opsEnded (s : State) (q : Nat) : Bool :=
  (quadCores q).all (fun n => (s.core n).ctxs.all (fun c => c.2.ops.isEmpty))

/-- Accepted table operations of contexts that `hit` picks come to nothing. -/
def State.dropOps (s : State) (hit : CtxOp → Bool) : State :=
  (s.allCtxs.filter (fun c => c.2.2.ops.any hit)).foldl (fun t c =>
    t.modCtx c.1 c.2.1 (fun x => { x with ops := x.ops.filter (fun o => !hit o) })) s

/-- A VF is left with no quad (R271): its range entries are invalid, each line flipped before, its slots EMPTY, and what
its contexts have asked of either comes to nothing. -/
def State.disown (s : State) (v : Nat) : State :=
  if s.quads.any (fun q => q.2.vf = v && q.2.part.isSome) then s
  else
    let mine := (s.hub.ranges.filter (fun e => e.2.vf = some v)).map (fun e => e.1)
    let slots := (s.hub.cultures.filter (fun c => c.2.owner = v)).map (fun c => c.1)
    let s0 := s.dropOps (fun o => match o with
      | .cultld k _ _ => slots.contains k
      | .rangeset e _ _ => mine.contains e
      | _ => false)
    let t := mine.foldl (fun u e => u.setRange e 0 0 (some v)) s0
    t.modHub (fun h => { h with cultures := h.cultures.filter (fun c => c.2.owner ≠ v) })

/-- Translations of a VF leave a tile's TLBs, as one of its quads changes to another VF (R187, R202). -/
def State.dropTlbs (s : State) (t v : Nat) : State :=
  (tileCores t).foldl (fun u n => u.modCore n (fun c => { c with tlb := c.tlb.filter (fun e => e.vf ≠ v) }))
    (s.modTile t (fun x => { x with tlb := x.tlb.filter (fun e => e.vf ≠ v) }))

/-- A quad is another VF's from now on: translations of the one that had it leave its tile's TLBs. -/
def State.giveVf (s : State) (q v : Nat) : State :=
  (s.modQuad q (fun y => { y with vf := v })).dropTlbs (tileOfQuad q) (s.quad q).vf

/-! Culture events (R263). -/

/-- A request of a participant at a line's home, which defers one that would take a reserved line or its ownership away
(R40). -/
def State.request (s : State) (line ev p : Nat) : State :=
  if s.deferred line ev (some p) then s else s.homeEvent line ev (some p)

/-- A slice may give a line up: it is neither pinned nor reserved (R40, R171). -/
def State.mayEvict (s : State) (p line : Nat) : Bool :=
  p ≥ 48 || !(s.pinnedLine p line || s.cores.any (fun c => tileOf c.1 == p && c.2.reserves line))

def execCultureRd (line p : Nat) (s : State) : Out := .next (s.request line 0 p)
def execCultureRdx (line p : Nat) (s : State) : Out := .next (s.request line 1 p)
def execCultureWrl (line p : Nat) (s : State) : Out := .next (s.request line 2 p)
def execCultureAmo (line p : Nat) (s : State) : Out := .next (s.request line 3 p)
def execCultureRed (line p : Nat) (s : State) : Out := .next (s.request line 4 p)
/-- A clean eviction notice: the participant, whose copy is not dirty, no longer holds the line. -/
def execCultureEvc (line p : Nat) (s : State) : Out :=
  .next (if s.mayEvict p line && !s.dirtyIn p line then (s.dropLine p line).cultureAct line 8 (some p) else s)
/-- A dirty write-back; the bytes are in memory already (log 6). -/
def execCultureWb (line p : Nat) (s : State) : Out :=
  .next (if s.mayEvict p line then (s.dropLine p line).cultureAct line 9 (some p) else s)
def execCultureAcq (line p : Nat) (s : State) : Out := .next (s.request line 10 p)
def execCultureRel (line p : Nat) (s : State) : Out := .next (s.request line 11 p)
/-- The FLUSHes of a line that contexts have accepted are performed (R221, R230). -/
def State.flushesDone (s : State) (line : Nat) : State :=
  (s.allCtxs.filter (fun c => c.2.2.ops.any (fun o => match o with | .flush l _ _ => l == line | _ => false))).foldl
    (fun t c => t.flushThose c.1 c.2.1 (fun l _ => l == line)) s
/-- FLUSH at a line's home, which defers it while a context reserves the line, and answers it with a retry while a wait
runs (R40, R398). -/
def execCultureFlush (line : Nat) (s : State) : Out :=
  .next (if s.flushBusy line none then s else (s.flushLine line).flushesDone line)
/-- FLIP at a line's home, as one action: it may enter a wait, in which other requests meet a retry. A line of a RANGESET
not yet performed that is then in a HOME state takes its new culture (R274). -/
def execCultureFlip (line : Nat) (s : State) : Out :=
  if s.deferred line 13 none || s.retriesAt line 13 then .next s
  else
    let t := s.cultureAct line 13 none
    match s.moving line with
    | some e => .next (if t.isHome line then t.moveLine e line else t)
    | none => .next t
/-- The last acknowledgement of a wait has arrived. -/
def execCultureAck (line : Nat) (s : State) : Out :=
  let e := s.dirOf line
  if s.transient (s.rangeSlot (64 * line)) e.state && e.wait.isEmpty then .next (s.homeEvent line 14 e.requester) else .next s
/-- The data of a recalled or forwarded owner has arrived, in a wait or without one (R264). -/
def execCultureData (line : Nat) (s : State) : Out :=
  let e := s.dirOf line
  .next (if e.wait.isEmpty && e.dataDue then s.homeEvent line 15 e.requester else s)

/-! Host accesses to a line (R263, R268, R269, R365). -/

/-- A run of host bytes within one line of HBM or host memory. -/
def hostRun (pa size : Nat) : Bool :=
  1 ≤ size && size ≤ 64 && pa % 64 + size ≤ 64 && (isHbm pa || isHost pa)

/-- A wait-and-wake entry watches a word that a host's run touches: by where its address leads. -/
def State.watchesPa (s : State) (e : WaitEntry) (pa size : Nat) : Bool :=
  !e.loc && (match s.hubPa e.vf e.va with | some x => x < pa + size && pa < x + 8 | none => false)

/-- A host's request at a line's home, which answers a line in a wait, or as its culture says, with a CXL retry (R264). -/
def State.hostAsks (s : State) (pa size ev : Nat) (rest : Unit → Out) : Out :=
  if hostRun pa size && s.homeBusy [(pa, size)] ev (some 48) then
    .next ((if s.retriesAt (lineOf pa) ev then s.cultureAct (lineOf pa) ev (some 48) else s).send .cxlRetry)
  else rest ()

/-- A host read: its data, or an error on poison. -/
def execCultureHrd (pa size : Nat) (s : State) : Out :=
  s.hostAsks pa size 5 fun _ =>
  if !hostRun pa size || (fromTo pa size).any (fun a => s.poisoned a) then .next (s.send (.cxl 0 true))
  else .next ((s.homeServe (lineOf pa) 5 (some 48)).send (.cxl (BitVec.ofNat 512 (s.view pa size)) false))

/-- What a host's write or add does to memory: bytes, seals and tags, wakes. -/
def State.hostWrite (s : State) (pa : Nat) (bytes : List Byte) (isAdd : Bool) : State :=
  let word := pa / 8 * 8
  let old := s.view word 8
  let s1 := ((s.beforeWrite [(pa, bytes.length)]).store [(pa, bytes)]).written [(pa, bytes.length)]
  let touch (e : WaitEntry) : Bool := s1.watchesPa e pa bytes.length
  if isAdd then s1.addSeen touch word old (s1.view word 8)
  else s1.writeSeen touch

/-- A write or atomic of a host, event `ev`, performed at a line's home, where the culture takes its bytes (R264); `new` is
`none` where it writes nothing. -/
def State.hostPerform (s : State) (pa ev : Nat) (new : Option (List Byte)) (isAdd : Bool) : State :=
  let t := s.homeServe (lineOf pa) ev (some 48)
  match new with
  | some b => if s.takes pa ev then t.hostWrite pa b isAdd else t
  | none => t

def execCultureHwr (pa size : Nat) (data : BitVec 512) (s : State) : Out :=
  s.hostAsks pa size 6 fun _ =>
  if !hostRun pa size || s.refuses pa 6 then .next (s.send (.cxl 0 true))
  else .next ((s.hostPerform pa 6 (some (toLE size data.toNat)) false).send (.cxl 0 false))

/-- The operations of a host atomic: those of an AMO, a compare-and-swap of 16 bytes too. -/
def hostAtomicOk (op pa size : Nat) : Bool :=
  hostRun pa size && pa % size = 0 && (((size = 4 || size = 8) && op ≤ 9) || (size = 16 && op = 9))

def execCultureHamo (op pa size : Nat) (operand compare : BitVec 128) (s : State) : Out :=
  s.hostAsks pa size 7 fun _ =>
  if !hostAtomicOk op pa size || s.refuses pa 7 || (fromTo pa size).any (fun a => s.poisoned a) then .next (s.send (.cxl 0 true))
  else
    let m := 256 ^ size
    let old := s.view pa size
    let new := if op = 9 && old ≠ compare.toNat % m then none
      else some (toLE size (amoNew size op old (operand.toNat % m) (compare.toNat % m)))
    .next ((s.hostPerform pa 7 new (op = 0)).send (.cxl (BitVec.ofNat 512 old) false))

end Sys2Proof.Machine
end

