-- ==== Sys2Proof/Machine/Preempt.lean ====
section
/-!
DEFINITION. Debugger operations (R339, R340), scrubbing (R32), and the gang switch: request, stop, drain, save, resume
(R341 to R346), and slice expiry (R54).
-/

namespace Sys2Proof.Machine

/-! Debugger (R339). -/

/-- The hoop of core n has a debugger, and context k is one of its contexts. -/
def State.debugCtx (s : State) (n k : Nat) : Bool := s.debugged n && (s.ctx n k).st != .free

def execDebuggerAttach (h : Nat) (s : State) : Out := .next (s.modHoop h (fun x => { x with dbg := true }))
def execDebuggerDetach (h : Nat) (s : State) : Out := .next (s.modHoop h (fun x => { x with dbg := false }))

/-- A stop takes effect at the context's next boundary (R67): before its next chain, prefixes issued being discarded. -/
def execDebugStop (n k : Nat) (s : State) : Out :=
  if s.debugCtx n k then .next (s.stopCtx n k (fun x => { x with stopDebug := true }))
  else .next s

/-- Release by a debugger, which also releases a context that trapped in its handler (R335). -/
def State.debugRelease (s : State) (n k : Nat) : State :=
  (s.modCtx n k (fun x => { x with stopDebug := false, stopTrap := false })).releaseCtx n k

/-- A debugger releases a context; the hypervisor releases, without one, a context that trapped in its handler (R335). -/
def execDebugRelease (n k : Nat) (s : State) : Out :=
  if (s.debugCtx n k || (s.ctx n k).stopTrap) && (s.ctx n k).st = .stopped then .next (s.debugRelease n k) else .next s

def execDebugStep (n k : Nat) (s : State) : Out :=
  if s.debugCtx n k && (s.ctx n k).st = .stopped then
    .next ((s.setFlagsOf n k (setFld (s.flagsOf n k) 22 22 1)).debugRelease n k)
  else .next s

/-- What a debugger writes to a STOPPED context. -/
def execDebugStateWrite (n k : Nat) (what : DebugWrite) (s : State) : Out :=
  if s.debugCtx n k && (s.ctx n k).st = .stopped then
    match what with
    | .bytes off data =>
      if off + data.length ≤ 0x1400 then
        let g : Seg := ⟨s.wsOf n k + off, (localVa (s.wsOf n k + off)).toNat, data⟩
        .next (s.store (s.clip g))
      else .next s
    | .pc p => .next (s.modCtx n k (fun x => { x with pc := p }))
    | .wsp w => .next (s.modCtx n k (fun x => { x with wsp := w }))
    | .flags f => .next (s.setFlagsOf n k (keepFlags (s.flagsOf n k) f))
  else .next s

/-! Drain (R341 step 3). -/

/-- The copies of core n complete and add, in the order they were started, and their records are written. -/
def State.drainCopies (s : State) (n : Nat) : State :=
  let l := (((s.core n).copies.filter (fun c => !c.2.added)).mergeSort (fun a b => a.2.order ≤ b.2.order)).map (fun c => c.1)
  let t := l.foldl (fun t slot => t.closeCopy n slot) s
  (t.core n).copies.foldl (fun u c => (u.recordAll n c.1 c.2.missing.length).dropDone n c.1) t

/-- The accepted matrix operations of a quad finish, and its copies of hoops that are not running any more end (R184,
R341). -/
def State.drainQuad (s : State) (q : Nat) : State :=
  let t := s.drainMatrix q (s.quad q).ops.length
  (quadCores q).foldl (fun u n =>
    if (u.core n).hoop.isNone || (u.core n).copies.all (fun c => c.2.hoop != (u.core n).hoop) then u.drainCopies n else u) t

/-- Everything that the contexts of a hoop have handed out is finished. -/
def State.drainHoop (s : State) (h : Nat) (x : Hoop) : State :=
  let cores := x.cores.filter (fun n => (s.core n).hoop = some h)
  let quads := (cores.map quadOf).dedup
  let s1 := quads.foldl (fun t q => t.drainQuad q) s
  let s2 := cores.foldl (fun t n => t.drainCopies n) s1
  (s.hoopCtxs h x).foldl (fun t c => t.performEach c.1 c.2) s2

/-- Every context of a hoop stops. -/
def State.stopAll (s : State) (h : Nat) (x : Hoop) (mark : Ctx → Ctx) : State :=
  (s.hoopCtxs h x).foldl (fun t c => t.stopCtx c.1 c.2 mark) s

def execDebugFreeze (h : Nat) (s : State) : Out :=
  match s.hoop h with
  | none => .next s
  | some x =>
    if x.dbg && x.state = .running then
      .next (((s.stopAll h x (fun y => { y with stopDebug := true })).drainHoop h x).modHoop h (fun y => { y with frozenDbg := true }))
    else .next s

def execDebugThaw (h : Nat) (s : State) : Out :=
  match s.hoop h with
  | none => .next s
  | some x =>
    if x.dbg && x.frozenDbg then
      .next (((s.hoopCtxs h x).foldl (fun t c => t.debugRelease c.1 c.2) s).modHoop h (fun y => { y with frozenDbg := false }))
    else .next s

/-! Scrubbing (R32, R9). -/

/-- A quad's memories, tables, slots and counters at their reset values, those that it shares with the other quads of its
tile among them (R301, R302); its L1s are written back first. Its VF, partition, lease and power state stay. -/
def State.scrub (s0 : State) (q : Nat) : State :=
  let s := s0.emptyL1s q
  let lo := quadLocal q
  let inside (a : Nat) : Bool := lo ≤ a && a < lo + Memory.localSize
  let t := { s with mem := s.mem.filter (fun c => !inside c.1), poison := s.poison.filter (fun g => !inside g) }
  let u := t.modQuad q (fun x =>
    { x with accMem := [], accPoison := [], ops := [], slots := [], prog := none, status := 0, thresh := 0, caps := [],
             inbox := [], fused := false, attrs := [], counts := [], given := [], tied := false, ties := 0 })
  let w := (tileQuads (tileOfQuad q)).foldl (fun v r => v.modQuad r (fun x =>
    { x with counts := x.counts.filter (fun c => !(0x218 ≤ c.1 && c.1 < 0x230)) })) u
  (quadCores q).foldl (fun v n => v.modCore n (fun c => { c with slots := [], chans := [], journal := [], fills := [] })) w

/-! The save area (R343). -/

/-- First byte of the section of the i-th quad of a partition. -/
def sectionAt (base i : Nat) : Nat := base + 0x100 + 0x248000 * i

/-- Code of the state a context returns to. -/
def Ctx.priorCode (x : Ctx) : Nat :=
  if x.st ≠ .stopped then 0
  else if x.stopDebug || x.stopTrap then 4
  else match x.prior with | .free => 0 | .ready => 1 | .held => 1 | .parked => 2 | .away => 3 | .stopped => 4

/-- A context record. -/
def State.ctxRecord (s : State) (n k : Nat) : List Byte :=
  let x := s.ctx n k
  let away := x.prior = .away && x.st = .stopped
  let pc := if away then s.peek (s.wsOf n k + 0x1270) 4 else x.pc.toNat
  let r := x.shadow
  let regs := [r.src, r.dst, r.bytes, r.rows, r.srcStride, r.dstStride, r.counter, r.mode]
  toLE 4 pc ++ toLE 4 x.wsp.toNat ++ toLE 8 (s.flagsOf n k).toNat ++ toLE 1 x.priorCode ++ toLE 1 x.pend.length ++
    toLE 14 0 ++ regs.flatMap (fun v => toLE 8 v.toNat) ++
    x.pend.flatMap (fun p => toLE 8 p.tval.toNat ++ toLE 1 p.cause.toNat ++ toLE 7 0) ++
    toLE (16 * (8 - x.pend.length)) 0 ++ toLE 8 (if away then x.pc.toNat else 0) ++ toLE 24 0

/-- A core record: channels with their flits, fallen-out ones last, and slots. -/
def Core.saved (c : Core) : List Byte :=
  let chan (k : Nat) : List Byte :=
    let f := ((c.chan k).flits ++ (c.chan k).flight).take 16
    f.flatMap (fun x => toLE 8 x.payload.toNat ++ toLE 1 x.tag ++ toLE 1 1 ++ toLE 6 0) ++ toLE (16 * (16 - f.length)) 0
  let slot (k : Nat) : List Byte :=
    let x := c.slot k
    toLE 1 (match x.state with | .empty => 0 | .filling => 1 | .landed => 2) ++ toLE 1 0 ++ toLE 2 x.vf ++ toLE 4 0 ++
      toLE 8 x.sva.toNat
  (fromTo 0 4).flatMap chan ++ (fromTo 0 16).flatMap slot ++ toLE 0x300 0

/-- Bytes of a quad's local memory whose reset value is not zero. -/
def resetOffs : List Nat :=
  (fromTo 0 64).flatMap (fun i =>
    [0x1238, 0x1250, 0x1251, 0x1258, 0x1259, 0x1260, 0x1261, 0x1268, 0x1269].map (fun o => 0x1400 * i + o))

/-- A run of memory is written anew: poison marks and release tags of its bytes go (R204, R255). -/
def State.overwrite (s : State) (dst n : Nat) : State :=
  let inside (a : Nat) : Bool := dst ≤ a && a < dst + n
  { s with
    mem := s.mem.filter (fun c => !inside c.1),
    poison := s.poison.filter (fun g => !(granuleBytes g).any inside),
    hub := { s.hub with tags := s.hub.tags.filter (fun t => !inside (64 * t.1)) } }

/-- Copies the image of a local memory: `src` and `dst` are its first bytes. -/
def State.moveImage (s : State) (src dst : Nat) : State :=
  let n := Memory.localSize
  let offs := (s.mem.filterMap (fun c => if src ≤ c.1 && c.1 < src + n then some (c.1 - src) else none)) ++ resetOffs
  let bytes := offs.map (fun o => (dst + o, [s.byte (src + o)]))
  (s.overwrite dst n).store bytes

/-- Writes the accumulator of a quad, row by row. -/
def State.saveAcc (s : State) (q dst : Nat) : State :=
  (s.overwrite dst 0x40000).store ((s.quad q).accMem.map (fun e => (dst + 4 * e.1, toLE 4 e.2.toNat)))

/-- The accumulator that a save area holds. -/
def State.loadAcc (s : State) (src : Nat) : Map W32 :=
  let keys := (s.mem.filterMap (fun c =>
    if src ≤ c.1 && c.1 < src + 0x40000 then some ((c.1 - src) / 4) else none)).dedup
  keys.foldl (fun m e => mapSet m e (BitVec.ofNat 32 (s.peek (src + 4 * e) 4))) []

/-- Runs written into a save area (R255). -/
def State.saveStore (s : State) (runs : List (Nat × List Byte)) : State :=
  (s.store runs).written (runs.map (fun r => (r.1, r.2.length)))

/-- The poisoned words of an accumulator that a save area holds: element / 2 (R204). -/
def State.loadAccPoison (s : State) (src : Nat) : List Nat :=
  ((s.poison.flatMap granuleBytes).filterMap (fun a =>
    if src ≤ a && a < src + 0x40000 then some ((a - src) / 8) else none)).dedup

/-- The records of the contexts and of core c within a quad. -/
def State.saveCore (s : State) (sec n : Nat) : State :=
  let c := coreInQuad n
  let recs := (fromTo 0 16).map (fun k => (sec + 256 * (16 * c + k), s.ctxRecord n k))
  s.saveStore (recs ++ [(sec + 0x4000 + 0x800 * c, (s.core n).saved)])

/-- Matrix state, attribute table and local memory of a needed quad. The bytes of the matrix block are in an encoding
of the device's own: free values (log 20). -/
def State.saveQuad (s : State) (sec q : Nat) : State :=
  let t := { s with draws := s.draws + 512 }
  let block := (fromTo 0 512).flatMap (fun i => toLE 8 (Config.freeValue (s.draws + i)).toNat)
  let table := (fromTo 0 16).flatMap (fun i => toLE 8 ((s.quad q).attr i).toNat)
  (((t.saveAcc q (sec + 0x6000)).saveStore [(sec + 0x46000, block), (sec + 0x47000, table)])).moveImage (quadLocal q) (sec + 0x48000)

/-! Gang switch: request and stop (R341, R346). -/

def State.setGang (s : State) (p : Nat) (g : Option Gang) : State := s.modPart p (fun x => { x with gang := g })

def Gang.request (time : Nat) (needed : List Nat) (slice : Option Nat) : Gang :=
  { phase := .requested, time := time, needed := needed, hoops := [], slice := slice, start := 0, seq := 0, quads := [],
    cores := [], image := [], marks := [] }

/-- A new switch of a partition, to which a switch of one hoop that waits gives up the save area (log 31). -/
def State.newGang (s : State) (p : Nat) (g : Gang) : State := (s.shelve p).setGang p (some g)

/-- The hypervisor asks for a switch: refused less than 1,000 ns ahead, or while another one of the partition needs the
save area (log 31). -/
def execGangSwitchRequest (p time : Nat) (needed : List Nat) (s : State) : Out :=
  let quads := (s.part p).record.quads
  if time < s.hub.now + 1000 || !(s.part p).areaFree then .next (s.send (.refused p))
  else .next (s.newGang p (Gang.request time (if needed.isEmpty then quads else quads.filter (fun q => needed.contains q)) none))

/-- The hoops of a partition in a state. -/
def State.hoopsOf (s : State) (p : Nat) (st : HoopState) : Map Hoop :=
  s.hub.hoops.filter (fun x => x.2.state = st && (s.vf x.2.record.vf).record.part = p)

/-- A placed launch that has not started goes back to the head of its queue (log 32). -/
def State.unplace (s : State) (h : Nat) (x : Hoop) : State :=
  let t := (s.releaseCores x.cores).modHub (fun y => { y with hoops := mapErase y.hoops h })
  t.modQueue x.record.vf x.record.queue (fun q => { q with records := { x.record with packet := none } :: q.records })

/-- Every context of the partition, or of the slice's hoop, stops. A slice whose hoop has ended is no switch. -/
def execGangSwitchStop (p : Nat) (s : State) : Out :=
  match (s.part p).gang with
  | none => .next s
  | some g =>
    if g.phase ≠ .requested || s.hub.now < g.time then .next s
    else
      let all := s.hoopsOf p .running
      let mine : Map Hoop := match g.slice with | some h => all.filter (fun x => x.1 = h) | none => all
      if g.slice.isSome && mine.isEmpty then .next (s.setGang p none)
      else
        let s1 := if g.slice.isSome then s else (s.hoopsOf p .placed).foldl (fun t x => t.unplace x.1 x.2) s
        let s2 := mine.foldl (fun t x =>
          (t.stopAll x.1 x.2 (fun y => { y with stopGang := true })).modHoop x.1 (fun y => { y with state := .switched })) s1
        .next (s2.setGang p (some { g with phase := .stopped, hoops := mine.map (fun x => x.1), start := s.hub.now }))

/-! Save (R342 to R344). -/

/-- The hoops of a switch. -/
def State.gangHoops (s : State) (g : Gang) : List (Nat × Hoop) :=
  g.hoops.filterMap (fun h => (s.hoop h).map (fun x => (h, x)))

/-- A switch acts on a core: on every core of its partition, those of a hoop that a slice expiry has stopped before among
them; a slice switch on those of its hoop and, of a needed quad, those that no hoop has (R341 to R343). -/
def State.switches (s : State) (g : Gang) (n : Nat) : Bool :=
  match (s.core n).hoop with
  | some h => g.hoops.contains h || (g.slice.isNone && (match s.hoop h with | some x => x.state = .switched | none => false))
  | none => g.slice.isNone || g.needed.contains (quadOf n)

/-- A hoop that the switch does not stop has a core of the quad (log 33). -/
def State.shared (s : State) (g : Gang) (q : Nat) : Bool :=
  (quadCores q).any (fun n => (s.core n).hoop.isSome && !s.switches g n)

/-- The lowest poisoned address of n bytes from `lo` on. -/
def State.poisonFrom (s : State) (lo n : Nat) : Option Nat :=
  if s.poison.isEmpty then none
  else ((s.poison.flatMap granuleBytes).filter (fun a => lo ≤ a && a < lo + n)).min?

/-- The first place of the records of core n that cannot be written, as FLAGS or a handler's return PC, in a workspace, is
poisoned: an address of its section (R344). -/
def State.recordPoison (s : State) (sec n : Nat) : Option Nat :=
  (fromTo 0 16).findSome? (fun k =>
    let at' := sec + 256 * (16 * coreInQuad n + k)
    let x := s.ctx n k
    if x.st = .free then none
    else if x.prior = .away && s.poisoned (s.wsOf n k + 0x1270) then some at'
    else if s.poisoned (s.wsOf n k + 0x1240) then some (at' + 8) else none)

/-- The first poisoned place of a needed quad, as an address of its section (R344). -/
def State.savePoison (s : State) (sec q : Nat) : Option Nat :=
  match (s.quad q).accPoison.min? with
  | some w => some (sec + 0x6000 + 8 * w)
  | none => ((s.poison.filter (fun a => isLocal a && localQuad a = q)).min?).map (fun a => sec + 0x48000 + localOff a)

/-- The pins of a quad's fetch slots: dropped or taken again. -/
def State.setPins (s : State) (q : Nat) (b : Bool) : State :=
  s.modQuad q (fun x => { x with slots := x.slots.map (fun f => (f.1, { f.2 with pinned := b })) })

/-- SAVE-FAILED (R344): records of cause 0x39, the quads scrubbed and released, the hoops ended with no DONE add. -/
def State.saveFailed (s : State) (p : Nat) (g : Gang) (at' : Nat) : State :=
  let hoops := (s.hoopsOf p .running ++ s.hoopsOf p .switched ++ s.hoopsOf p .placed).map (fun x => (x.1, x.2))
  let vfs := (hoops.map (fun x => x.2.record.vf)).dedup
  let s1 := vfs.foldl (fun t v => t.faultRecord v 0x39 at' 0 0 srcHub 0 0) s
  let s2 := hoops.foldl (fun t x => t.stopHoop x.1 x.2 false) s1
  let s3 := (s.part p).record.quads.foldl (fun t q =>
    (quadCores q).foldl (fun u n => u.modCore n (fun c => { c with hoop := none })) ((t.scrub q).leavePart q)) s2
  (s3.modPart p (fun x => { x with shelf := [] })).setGang p (some { g with phase := .failed, hoops := [], quads := [], cores := [] })

/-- A saved core is left to the incoming hoop. -/
def Core.left (c : Core) (n : Nat) : Core :=
  { c with
    ctxs := c.ctxs.map (fun x => (x.1, { Ctx.reset (coreInQuad n) x.1 with lastIssue := x.2.lastIssue })),
    hoopO := 0, hoopS := 0, hoop := none, slots := [], chans := [], journal := [], fills := [] }

/-- The workspaces of a core's contexts at their reset values, on a quad that is shared (log 33). -/
def State.scrubWs (s : State) (n : Nat) : State :=
  let inside (a : Nat) : Bool := (fromTo 0 16).any (fun k =>
    (s.ctx n k).st != .free && s.wsOf n k ≤ a && a < s.wsOf n k + 0x1400)
  { s with mem := s.mem.filter (fun c => !inside c.1), poison := s.poison.filter (fun a => !inside a) }

/-- A needed quad is saved in the device, scrubbed and handed over. -/
def State.handOver (s : State) (p : Nat) (g : Gang) (q : Nat) : State :=
  let mine := (quadCores q).filter (fun n => s.switches g n && !(s.shared g q && (s.core n).hoop.isNone))
  let keep (t : State) : State := t.modPart p (fun x =>
    { x with gang := x.gang.map (fun y =>
        { y with quads := if s.shared g q then y.quads else mapSet y.quads q (s.quad q),
                 cores := mine.foldl (fun m n => mapSet m n (s.core n)) y.cores }) })
  let s1 := keep s
  let s2 := if s.shared g q then mine.foldl (fun t n => t.scrubWs n) s1 else s1.scrub q
  let s3 := mine.foldl (fun t n => t.modCore n (fun c => c.left n)) s2
  if g.slice.isSome then s3 else s3.leavePart q

/-- A switch that completes charges the queue of each hoop from T on (R346), and returns a pre-empted hoop to the head
of its queue (R54). -/
def State.gangCharge (s : State) (g : Gang) (h : Nat) (x : Hoop) : State :=
  s.modQueue x.record.vf x.record.queue (fun q =>
    { q with
      deficit := q.deficit - (x.record.w * x.record.h * ((s.hub.now - g.start) / 1000) : Nat),
      records := if g.slice = some h then { x.record with hoop := some h, packet := none } :: q.records else q.records })

/-- The quads that a switch concerns: those of its partition, of a slice switch those of its hoop and the needed ones. -/
def State.gangQuads (s : State) (p : Nat) (g : Gang) : List Nat :=
  if g.slice.isNone then (s.part p).record.quads
  else (g.needed ++ (s.gangHoops g).flatMap (fun x => x.2.cores.map quadOf)).dedup

/-- The task-queue records of the hoop of a slice switch leave its region, which the displacing hoop may come to use
(R331). -/
def State.takeRecords (s : State) (h : Nat) (x : Hoop) : State :=
  s.modHoop h (fun y => { y with records := x.pushed.map (fun i => (s.contAt x i, s.contPoisoned x i)), pushed := [] })

/-- The save of a stopped partition: drain, COMMIT, sections, COMMIT. -/
def execGangSwitchSave (p : Nat) (s : State) : Out :=
  match (s.part p).gang with
  | none => .next s
  | some g =>
    if g.phase ≠ .stopped then .next s
    else
      let pr := (s.part p).record
      let hoops := s.gangHoops g
      let quads := s.gangQuads p g
      let s1 := quads.foldl (fun t q => t.drainQuad q) (hoops.foldl (fun t x => t.drainHoop x.1 x.2) s)
      let s2 := (s1.endLeases (s1.leasedQuads.filter (fun q => g.needed.contains q)) 5).saveStore [(pr.save, toLE 8 0)]
      let secs := (fromTo 0 pr.quads.length).zip pr.quads
      let sec (q : Nat) : Nat := sectionAt pr.save ((findPos (fun x => x = q) pr.quads).getD 0)
      let stopped (n : Nat) : Bool := s.switches g n
      let bad := g.needed.filterMap (fun q => s2.savePoison (sec q) q) ++
        secs.filterMap (fun x => ((quadCores x.2).filter stopped).findSome? (fun n => s2.recordPoison (sectionAt pr.save x.1) n))
      match bad.head? with
      | some a => .next (s2.saveFailed p g a)
      | none =>
        let seq := (s.part p).seq + 1
        let bitmap := (g.needed.map (fun q => 2 ^ q)).sum
        let s3 := secs.foldl (fun t x =>
          ((quadCores x.2).filter stopped).foldl (fun u n => u.saveCore (sectionAt pr.save x.1) n) t) s2
        let s4 := g.needed.foldl (fun t q => t.saveQuad (sec q) q) s3
        let s5 := s4.saveStore [(pr.save + 8, toLE 8 g.time ++ toLE 48 bitmap ++ toLE 192 0)]
        let s6 := (s5.saveStore [(pr.save, toLE 8 (2 ^ 63 + seq.toNat))]).modPart p (fun x => { x with seq := seq })
        let s6' := if g.slice.isSome then hoops.foldl (fun t x => t.takeRecords x.1 x.2) s6 else s6
        let s7 := quads.foldl (fun t q => t.setPins q false) s6'
        let s8 := s7.setGang p (some { g with phase := .saved, seq := seq })
        let s9 := g.needed.foldl (fun t q => t.handOver p g q) s8
        .next ((hoops.foldl (fun t x => t.gangCharge g x.1 x.2) s9).refill p)

/-! Resume (R345). -/

/-- A saved context read back from its record, over what the device kept: causes that have come since, such as a refused
command's (R183), wait behind the saved ones. -/
def State.readCtx (s : State) (at' : Nat) (kept now : Ctx) : Ctx :=
  let w (off : Nat) : W64 := BitVec.ofNat 64 (s.peek (at' + off) 8)
  let code := s.peek (at' + 0x10) 1
  let away := kept.prior = .away
  let saved := min (s.peek (at' + 0x11) 1) 8
  let pend : List Pend := (fromTo 0 saved).map (fun i =>
    ⟨BitVec.ofNat 6 (s.peek (at' + 0x68 + 16 * i) 1), w (0x60 + 16 * i)⟩)
  { kept with
    st := if code = 0 then .free else .stopped,
    prior := match code with | 1 => .ready | 2 => .parked | 3 => .away | 4 => kept.prior | _ => .free,
    pc := BitVec.ofNat 14 (if away then s.peek (at' + 0xE0) 8 else s.peek at' 4),
    wsp := BitVec.ofNat 32 (s.peek (at' + 4) 4),
    shadow := ⟨w 0x20, w 0x28, w 0x30, w 0x38, w 0x40, w 0x48, w 0x50, w 0x58⟩,
    pend := pend ++ kept.pend.drop saved,
    lastIssue := now.lastIssue }

/-- A channel read back; the save area has no place for a flit's sender and scope, which the device keeps. -/
def State.readChan (s : State) (at' : Nat) (kept : Chan) : Chan :=
  let f (i : Nat) : Option Flit :=
    if s.peek (at' + 16 * i + 9) 1 % 2 = 1 then
      let k := (kept.flits ++ kept.flight)[i]?
      some ⟨BitVec.ofNat 64 (s.peek (at' + 16 * i) 8), s.peek (at' + 16 * i + 8) 1,
        (k.map (fun x => x.sender)).getD 0, (k.map (fun x => x.scope)).getD 4⟩
    else none
  ⟨(fromTo 0 16).filterMap f, []⟩

/-- A slot record read back; its words are filled afresh. -/
def State.readSlot (s : State) (at' : Nat) : Slot :=
  { state := match s.peek at' 1 with | 1 => .filling | 2 => .landed | _ => .empty,
    sva := BitVec.ofNat 64 (s.peek (at' + 8) 8), vf := s.peek (at' + 2) 2, frame := 0, words := [], poison := [] }

/-- A saved core read back. -/
def State.readCore (s : State) (sec n : Nat) (kept : Core) : State :=
  let now := s.core n
  let c := coreInQuad n
  let ctxs := kept.ctxs.map (fun x => (x.1, s.readCtx (sec + 256 * (16 * c + x.1)) x.2 (s.ctx n x.1)))
  let core : Core :=
    { now with
      ctxs := ctxs, hoopO := kept.hoopO, hoopS := kept.hoopS, hoop := kept.hoop,
      slots := (fromTo 0 16).map (fun k => (k, s.readSlot (sec + 0x4400 + 0x800 * c + 16 * k))),
      chans := (fromTo 0 4).map (fun k => (k, s.readChan (sec + 0x4000 + 0x800 * c + 256 * k) (kept.chan k))),
      journal := kept.journal }
  let t := s.setCore n core
  ctxs.foldl (fun u x =>
    if x.2.st = .free then u
    else u.setFlagsOf n x.1 (BitVec.ofNat 64 (s.peek (sec + 256 * (16 * c + x.1) + 8) 8))) t

/-- Poison of a local image in HBM, carried to the local memory. -/
def State.carryPoison (s : State) (src q : Nat) : State :=
  ((s.poison.flatMap granuleBytes).filter (fun a => a % 8 = 0 && src ≤ a && a < src + Memory.localSize)).foldl
    (fun t a => t.addPoison (quadLocal q + (a - src))) s

/-- A saved quad read back. What an interim hoop has left in flight is finished first; a quad that another VF has had
meanwhile is scrubbed before (R9). -/
def State.readQuad (s0 : State) (p sec q : Nat) (kept : Quad) : State :=
  let old := (s0.quad q).vf
  let s1 := s0.drainQuad q
  let s := if old = kept.vf then s1 else (s1.scrub q).giveVf q kept.vf
  let t := ((s.moveImage (sec + 0x48000) (quadLocal q))).carryPoison (sec + 0x48000) q
  (t.joinPart q p).modQuad q (fun x =>
    { x with
      vf := kept.vf, accMem := t.loadAcc (sec + 0x6000), accPoison := t.loadAccPoison (sec + 0x6000), slots := kept.slots,
      prog := kept.prog, status := kept.status, thresh := kept.thresh, caps := kept.caps, inbox := kept.inbox,
      attrs := (fromTo 0 16).map (fun i => (i, BitVec.ofNat 64 (t.peek (sec + 0x47000 + 8 * i) 8))),
      given := kept.given })

/-- The workspaces of a core on a shared quad read back, poison with them (R204; log 33). -/
def State.readWs (s : State) (sec q n : Nat) : State :=
  (fromTo 0 16).foldl (fun t k =>
    let x := t.ctx n k
    if x.st = .free then t
    else
      let o := x.wsp.toNat % Memory.localSize
      let u := t.store [(quadLocal q + o, Memory.readBytes t.mem (sec + 0x48000 + o) 0x1400)]
      ((t.poison.flatMap granuleBytes).filter (fun a => a % 8 = 0 && sec + 0x48000 + o ≤ a && a < sec + 0x48000 + o + 0x1400)).foldl
        (fun v a => v.addPoison (quadLocal q + (a - (sec + 0x48000)))) u) s

/-- A slot that is LANDED or FILLING is filled again from its SVA; a fault leaves it EMPTY, with a record to a VF. -/
def State.refillSlot (s : State) (n k vf : Nat) (tag : W64) : State :=
  let sl := (s.core n).slot k
  if sl.state = .empty then s
  else
    let fail (t : State) (c : BitVec 6) : State :=
      (t.modSlot n k (fun _ => Slot.reset)).faultRecord vf c sl.sva.toNat 0 tag srcHub 0 0
    match s.enginePlace (engineOf n sl.vf) accX sl.sva.toNat with
    | (t, .inr c) => fail t c
    | (t, .inl pa) => if (t.segmentPoison pa).isEmpty then t.landSegment n k sl.sva sl.vf pa else fail t 0x3B

/-- A task-queue record of a slice switch goes back to its hoop's region, poisoned as it was. -/
def State.putRecord (s : State) (h : Nat) (r : Cont × Bool) : State :=
  match s.hoop h with
  | some x =>
    let t := s.putCont h r.1
    if r.2 then t.addPoison (s.taskRegion x + 144 * x.freePlace) else t
  | none => s

/-- A hoop's contexts return to their states, its records to its region, its crossed continuations are pushed. -/
def State.returnHoop (s : State) (h : Nat) (x : Hoop) : State :=
  let u := s.modHoop h (fun y =>
    { y with state := .running, sliceEnd := s.hub.now + y.slice, reserved := y.reserved - y.crossed.length, crossed := [] })
  let b := x.records.foldl (fun v r => v.putRecord h r) (u.modHoop h (fun y => { y with records := [] }))
  let t := x.crossed.foldl (fun v c => v.putCont h c) b
  (t.hoopCtxs h x).foldl (fun u c => (u.modCtx c.1 c.2 (fun y => { y with stopGang := false })).releaseCtx c.1 c.2) t

/-- Re-injects the flits of a core of a hoop, and marks its quad at work, whose L1s are fused again where the launch had
them so (R198). -/
def State.reviveCore (s0 : State) (n : Nat) (x : Hoop) : State :=
  let s := if x.record.fuse && !(s0.quad (quadOf n)).fused then s0.emptyL1s (quadOf n) else s0
  let t := (fromTo 0 4).foldl (fun u k =>
    u.modChan n k (fun c => { flits := c.flits ++ c.flight, flight := [] })) s
  t.modQuad (quadOf n) (fun q => { q with active := true, fused := q.fused || x.record.fuse })

/-- Re-fills the slots of a core, one of a hoop or idle. -/
def State.refillCore (s : State) (n : Nat) : State :=
  (fromTo 0 16).foldl (fun t k =>
    match (t.core n).hoop.bind t.hoop with
    | some x => t.refillSlot n k x.record.vf x.record.tag
    | none => t.refillSlot n k ((t.core n).slot k).vf 0) s

/-- The cores and quads of a switch are there for its return: no other hoop has a core of either, and the table operations
of interim hoops are performed (R9). -/
def State.mayResume (s : State) (p : Nat) (g : Gang) : Bool :=
  g.quads.all (fun q => ((s.quad q.1).part.isNone || (s.quad q.1).part == some p) && s.opsEnded q.1) &&
    (g.cores.map (fun c => c.1) ++ g.quads.flatMap (fun q => quadCores q.1)).all (fun n =>
      (match (s.core n).hoop with | some h => g.hoops.contains h | none => true) &&
        (s.core n).ctxs.all (fun c => c.2.ops.isEmpty))

/-- The first poisoned place of what a resume reads into registers: COMMIT, attribute tables, the records of contexts and
cores (R204, R344; log 67). -/
def State.resumePoison (s : State) (p : Nat) (g : Gang) : Option Nat :=
  let pr := (s.part p).record
  let sec (q : Nat) : Nat := sectionAt pr.save ((findPos (fun x => x = q) pr.quads).getD 0)
  let tables : List (Nat × Nat) := g.quads.map (fun q => (sec q.1 + 0x47000, 0x80))
  let recs : List (Nat × Nat) := g.cores.flatMap (fun c =>
    [(sec (quadOf c.1) + 0x1000 * coreInQuad c.1, 0x1000), (sec (quadOf c.1) + 0x4000 + 0x800 * coreInQuad c.1, 0x500)])
  ((pr.save, 8) :: (tables ++ recs)).findSome? (fun r => s.poisonFrom r.1 r.2)

/-- The cores whose slots a resume fills again: those of its quads, a slice switch's where they are its hoop's or its own
(R345). -/
def State.gangCores (s : State) (p : Nat) (g : Gang) : List Nat :=
  ((s.gangQuads p g).flatMap quadCores).filter (fun n =>
    (g.cores.any (fun c => c.1 = n)) || (match (s.core n).hoop with | some h => g.hoops.contains h | none => g.slice.isNone))

/-- The resume of a partition, or of the hoop of a slice switch that dispatch has placed again. The hub that meets poison in
what it reads into registers follows the save-failure rule (R204, R344; log 67). -/
def execResume (p : Nat) (s : State) : Out :=
  match (s.part p).gang with
  | none => .next s
  | some g =>
    let pr := (s.part p).record
    let due := (g.phase = .saved && g.slice.isNone) || (g.phase = .restoring && g.time ≤ s.hub.now)
    let bad := s.resumePoison p g
    if !due || !s.mayResume p g then .next s
    else if bad.isSome then .next (s.saveFailed p g (bad.getD 0))
    else if s.peek pr.save 8 ≠ 2 ^ 63 + g.seq.toNat then .next s
    else
      let sec (q : Nat) : Nat := sectionAt pr.save ((findPos (fun x => x = q) pr.quads).getD 0)
      let s1 := g.quads.foldl (fun t q => t.readQuad p (sec q.1) q.1 q.2) s
      let s2 := g.cores.foldl (fun t c => t.readCore (sec (quadOf c.1)) c.1 c.2) s1
      let s3 := g.cores.foldl (fun t c =>
        if (mapGet g.quads (quadOf c.1)).isSome then t else t.readWs (sec (quadOf c.1)) (quadOf c.1) c.1) s2
      let hoops := s3.gangHoops g
      let s4 := hoops.foldl (fun t x =>
        (x.2.cores.filter (fun n => (t.core n).hoop = some x.1)).foldl (fun u n => u.reviveCore n x.2) t) s3
      let s4' := (s4.gangCores p g).foldl State.refillCore s4
      let quads := s.gangQuads p g
      let s5 := (quads.foldl (fun t q => t.setPins q true) s4').saveStore [(pr.save, toLE 8 0)]
      .next (hoops.foldl (fun t x => t.returnHoop x.1 x.2) (s5.setGang p none))

/-! Slice expiry (R54, R346). -/

/-- The launch that would displace a hoop, with its place: the first of another queue, in ring order. -/
def State.displacer (s : State) (h : Nat) (x : Hoop) : Option (Launch × Nat × Nat) :=
  let mine := 8 * x.record.vf + x.record.queue
  (s.ringOf (s.vf x.record.vf).record.part).findSome? (fun r =>
    match r.2.records with
    | l :: _ =>
      if r.1 ≠ mine && r.2.deficit > 0 then
        (s.origin l (fun n => (s.core n).hoop = some h)).map (fun o => (l, o.1, o.2))
      else none
    | [] => none)

/-- A slice expires (R54, R346); while another switch of the partition needs the save area, the test waits (log 31). -/
def execSliceExpiry (h : Nat) (s : State) : Out :=
  match s.hoop h with
  | none => .next s
  | some x =>
    let p := (s.vf x.record.vf).record.part
    if x.state ≠ .running || s.hub.now < x.sliceEnd || !(s.part p).areaFree then .next s
    else
      let late : Bool := match s.queue x.record.vf x.record.queue with | some q => q.deficit ≤ 0 | none => false
      match s.displacer h x with
      | some (l, ox, oy) =>
        if late then
          let needed := ((rectCores ox oy l.w l.h).map quadOf).dedup
          .next ((s.modHoop h (fun y => { y with sliceEnd := s.hub.now + y.slice })).newGang p
            (Gang.request (s.hub.now + 1000) needed (some h)))
        else .next (s.modHoop h (fun y => { y with sliceEnd := s.hub.now + y.slice }))
      | none => .next (s.modHoop h (fun y => { y with sliceEnd := s.hub.now + y.slice }))

/-! Asynchronous traps (R334). -/

/-- The head of a context's pending queue is delivered at its boundary, instead of the chain that would issue or go on
(R67). -/
def execAsyncTrapDelivery (n k : Nat) (s : State) : Out :=
  if (s.ctx n k).st = .ready then .next (s.deliverPending n k) else .next s

end Sys2Proof.Machine
end

