-- ==== Sys2Proof/Machine/Events.lean ====
section
/-!
DEFINITION. Steps of the part with no instruction behind them: holds and reservations (R39, R40), fills and walks,
landings, performance of stores and posted stores (R211, R212, R218, R230), scope misses (R256), sleeping participants
(R279), soft errors and self-tests (R204, R205), words that are no instruction (R75).
-/

namespace Sys2Proof.Machine

/-! Holds and landing reservations (R39, R40). -/

/-- A hold of 1,024 cycles is over: the context is READY, its reservation dropped. -/
def execHoldTimeout (n k : Nat) (s : State) : Out :=
  match (s.ctx n k).hold with
  | some c =>
    if (s.ctx n k).st = .held && c ≥ 1024 then
      .next (s.modCtx n k (fun x =>
        { x with st := .ready, hold := none, resv := none, resvLost := x.resvLost || x.resv.isSome }))
    else .next s
  | none => .next s

/-- The condition behind a hold has cleared. -/
def execHoldConditionClears (n k : Nat) (s : State) : Out :=
  if (s.ctx n k).st = .held then .next (s.modCtx n k (fun x => { x with st := .ready, hold := none })) else .next s

/-- A reservation has lasted 1,024 cycles. That a would-block instruction may report 0x47 after this too, as R40 states of a
trap, a stop and a hold, is a choice of the model (DESIGN CHOICE, log 72). -/
def execLandingReservationExpiry (n k : Nat) (s : State) : Out :=
  match (s.ctx n k).resv with
  | some r => if r.cycles ≥ 1024 then .next (s.modCtx n k (fun x => { x with resv := none, resvLost := true })) else .next s
  | none => .next s

/-! Fills and walks. -/

/-- A line that PREF asked for arrives at a core's L1, and at its slice (R219). -/
def execLineFillComplete (n line : Nat) (s : State) : Out :=
  if !(s.core n).fills.contains line || s.askBusy (tileOf n) [(64 * line, 64)] 0 then .next s
  else
    .next ((s.modCore n (fun c => { c with fills := c.fills.filter (fun l => l ≠ line) })).readLine n
      (s.quad (quadOf n)).vf 0 line false)

/-- A walk in flight ends: one of its die's first 64, as the others still wait for a walker (R202). -/
def execPageWalkComplete (n : Nat) (va : W64) (s : State) : Out :=
  match ((s.dieWalks (dieOf n)).take 64).find? (fun w => w.core = n && w.page = va.toNat / 4096) with
  | some w => .next (s.endWalk w)
  | none => .next s

/-- The read of a PARK.ge that could not be made at issue (R114): the test, or the PARK.ge once more when its
translation faults. -/
def execParkGeReadComplete (n k : Nat) (s : State) : Out :=
  let x := s.ctx n k
  match x.park with
  | .ge va target true =>
    if x.st ≠ .parked then .next s
    else
      let who : Who := ⟨n, (s.quad (quadOf n)).vf, false, false, some (quadOf n)⟩
      let again (t : State) : State := (t.modCtx n k (fun y => { y with pc := y.parkPc })).reinsert n k
      match s.place who accR.config va.toNat with
      | (t, .bad _) => .next (again t)
      | (t, .at pa _ tr) =>
        if tr then .next t
        else if t.poisoned pa then .next (again t)
        else if t.askBusy (tileOf n) [(pa, 8)] 0 then .next t
        else
          let u := t.readRuns n who.vf 0 [(pa, 8, false)]
          if target.toNat ≤ u.loadFor n k pa 8 then .next (u.reinsert n k)
          else .next (u.modCtx n k (fun y => { y with park := .ge va target false }))
  | _ => .next s

/-! Landings (R212, R214, R228). -/

/-- A load in flight may be read before the ones before it: no common byte, not both on SO pages. -/
def Lda.free (l : Lda) (before : List Lda) : Bool :=
  before.all (fun m => !overlap m.reads l.reads && !(m.ord = 0 && l.ord = 0))

/-- The i-th load in flight of a context lands, of the kind that `vec` tells; one that meets a retry stays in flight
(R398). -/
def State.landNth (s : State) (n k i : Nat) (vec : Bool) : State :=
  let l := (s.ctx n k).ldas
  match l[i]? with
  | some x =>
    if !(x.vec = vec && x.free (l.take i)) then s
    else if s.askBusy (tileOf n) x.reads 0 then s.askAgain (s.asked (tileOf n) x.reads 0) 0 (some (tileOf n))
    else (s.modCtx n k (fun y => { y with ldas := dropAt l i })).land n k x
  | none => s

def execLdaLanding (n k i : Nat) (s : State) : Out := .next (s.landNth n k i false)
def execVldaLanding (n k i : Nat) (s : State) : Out := .next (s.landNth n k i true)

/-! Stores (R211, R228, R230). -/

/-- A store may be performed before the ones before it: no common byte, not both on SO pages, not the later part of a
scatter whose earlier part waits (R216). -/
def PendStore.free (p : PendStore) (before : List PendStore) : Bool :=
  !(match before.getLast? with | some q => q.more | none => false) && before.all (fun q => !overlap (segRuns q.segs) (segRuns p.segs) && !(q.ord = 0 && p.ord = 0))

/-- The event that a store raises at the homes of its lines, and the lines that it asks for: of those that its tile owns
only a streaming store asks (R197, R263). -/
def PendStore.event (p : PendStore) : Nat := if p.cache = 3 then 2 else 1
def State.asksFor (s : State) (n : Nat) (p : PendStore) : List Nat :=
  (linesOf (segRuns p.segs)).filter (fun l => p.cache = 3 || !s.ownsLine (tileOf n) l)
/-- A home answers a store with a retry, or defers it. -/
def State.storeBusy (s : State) (n : Nat) (p : PendStore) : Bool :=
  s.homeBusy ((s.asksFor n p).map (fun l => (64 * l, 64))) p.event (some (tileOf n))

/-- The i-th accepted store of a context is performed; one that meets a retry stays unperformed (R398). -/
def State.performNth (s : State) (n k i : Nat) : State :=
  let l := (s.ctx n k).stores
  match l[i]? with
  | some p =>
    if !p.free (l.take i) then s
    else if s.storeBusy n p then s.askAgain (s.asksFor n p) p.event (some (tileOf n))
    else (s.modCtx n k (fun y => { y with stores := dropAt l i })).performStore n k p
  | none => s

def execStorePerformed (n k i : Nat) (s : State) : Out := .next (s.performNth n k i)

/-- A store to a local-window attribute entry is performed (R194). -/
def execLocalWindowEntryWrite (n k i : Nat) (s : State) : Out :=
  match (s.ctx n k).stores[i]? with
  | some p => if p.segs.any (fun g => isCfg g.pa && cfgOff g.pa < 0x80) then .next (s.performNth n k i) else .next s
  | none => .next s

/-- A request that met a retry is made again at the home (R398); the access stays unperformed. -/
def execDeviceRequestRepeat (n k i : Nat) (s : State) : Out :=
  match (s.ctx n k).stores[i]? with
  | some p => .next (s.askAgain (s.asksFor n p) p.event (some (tileOf n)))
  | none => .next s

/-! Posted stores (R218, R327). -/

/-- The earlier posted stores of its context that must reach their targets first (R227, R228). -/
def State.postFree (s : State) (n j : Nat) : Bool :=
  let e := (s.core n).entry j
  (s.postsOf n e.owner (fun f => f.order < e.order)).all (fun i =>
    let f := (s.core n).entry i
    !overlap (segRuns f.segs) (segRuns e.segs) && !(f.ord = 0 && e.ord = 0))

/-- A posted store reaches its target; one that meets a retry stays PENDING (R398). -/
def execPstAcknowledge (n j : Nat) (s : State) : Out :=
  let e := (s.core n).entry j
  if e.state = .pending && s.postFree n j && (s.postRefusal e).isNone then
    .next (if s.homeBusy (segRuns e.segs) 2 (some (tileOf n)) then s.askAgain (linesOf (segRuns e.segs)) 2 (some (tileOf n))
      else s.settlePost n j)
  else .next s

def execPstRefusal (n j : Nat) (s : State) : Out :=
  let e := (s.core n).entry j
  if e.state = .pending && s.postFree n j && (s.postRefusal e).isSome then .next (s.settlePost n j) else .next s

/-! Code fills (R220). -/

/-- The last word of a fill is in place; poisoned words are carried along. A read that meets a retry is made again
(R398). -/
def execCfetchFillLanded (n k : Nat) (s : State) : Out :=
  let x := (s.core n).slot k
  let busy := s.engineBusy (tileOf n) [(x.frame, 4096)] 0
  .next (if x.state ≠ .filling then s
    else if busy.isEmpty then s.landSegment n k x.sva x.vf x.frame else s.engineAgain (tileOf n) busy)

/-! Scope misses (R256). -/

def execScopeMissMessage (i : Nat) (s : State) : Out :=
  match s.hub.misses[i]? with
  | none => .next s
  | some m =>
    let t := s.modHub (fun h => { h with misses := dropAt h.misses i })
    .next (t.pendSender m.core m.ctx m.hoop m.vf (m.gone.getD 0) m.gone.isSome 0x17 m.va)

/-! Failed units (R205). -/

/-- The unit of a quad has failed: it is reported, its partition stops as in a gang switch and is scrubbed, and each VF
with state there receives a record of cause 0x3A. -/
def State.failQuad (s : State) (q : Nat) : State :=
  let t := s.send (.failed q)
  match (s.quad q).part with
  | none => t
  | some p =>
    let hoops := t.hoopsOf p .running
    let quads := (t.part p).record.quads
    let t1 := hoops.foldl (fun u x =>
      ((u.stopAll x.1 x.2 (fun y => { y with stopGang := true })).drainHoop x.1 x.2).modHoop x.1 (fun y => { y with state := .switched })) t
    let vfs := ((hoops.map (fun x => x.2.record.vf)) ++ quads.map (fun r => (s.quad r).vf)).dedup
    let t2 := quads.foldl (fun u r => u.scrub r) t1
    let t3 := vfs.foldl (fun u v => u.faultRecord v 0x3A 0 0 0 (srcMatrix q) 0 0) t2
    (t3.modPart p (fun x => { x with shelf := [] })).setGang p
      (some { Gang.request 0 [] none with phase := .failed, hoops := hoops.map (fun x => x.1) })

/-- A soft-error record about a quad: R326 gives its DETAIL no layout, so its bytes are free values (log 20). -/
def State.softEvent (s : State) (q kind : Nat) : State :=
  { s with draws := s.draws + 6 }.quadEvent q kind
    ((fromTo 0 6).flatMap (fun i => toLE 8 (Config.freeValue (s.draws + i)).toNat))

/-- Cause 0x3A for every context of a quad that is not FREE (R205). -/
def State.pendQuad (s : State) (q : Nat) : State :=
  (quadCores q).foldl (fun w n => (fromTo 0 16).foldl (fun z k =>
    if (z.ctx n k).st = .free then z else z.pendCause n k 0x3A 0 true) w) s

/-- The quads whose partitions and VFs a memory concerns. -/
def testQuads : TestUnit → List Nat
  | .localMem q => [q]
  | .acc q => [q]
  | .code n => [quadOf n]
  | .l1 n => [quadOf n]
  | .coreTlb n => [quadOf n]
  | .l2 t => tileQuads t
  | .sharedTlb t => tileQuads t
  | .service t => tileQuads t

/-- The event of a self-test, once to each partition that the memory concerns. -/
def State.testEvent (s : State) (u : TestUnit) (kind : Nat) : State :=
  ((testQuads u).foldl (fun (acc : State × List (Option Nat)) q =>
    if acc.2.contains (s.quad q).part then acc else (acc.1.softEvent q kind, (s.quad q).part :: acc.2)) (s, [])).1

/-- A record of cause 0x3A to each VF that has one of some quads (R205). -/
def State.retireRecords (s : State) (quads : List Nat) : State :=
  (quads.foldl (fun (acc : State × List Nat) q =>
    let x := s.quad q
    if x.part.isNone || acc.2.contains x.vf then acc
    else (acc.1.faultRecord x.vf 0x3A 0 0 0 (srcMatrix q) 0 0, x.vf :: acc.2)) (s, [])).1

/-- What follows the retirement of a memory that is no bank of a quad's local memory (R205; log 37): contexts are told of
their core's instruction words and dirty lines, VFs of accumulators, dirty slice lines and service memory; a TLB holds
copies only. -/
def State.retireUnit (s : State) (u : TestUnit) : State :=
  match u with
  | .code n => if (s.core n).slots.any (fun x => x.2.state ≠ .empty) then s.pendQuad (quadOf n) else s
  | .l1 n => if (s.core n).l1.any (fun x => x.dirty) then s.pendQuad (quadOf n) else s
  | .acc q => s.retireRecords [q]
  | .l2 t => if (s.tile t).l2.any (fun x => x.dirty) then s.retireRecords (tileQuads t) else s
  | .service t => s.retireRecords (tileQuads t)
  | _ => s

/-- A self-test ends: transient, or the bank is retired (R205). -/
def execSelfTestComplete (unit : TestUnit) (bank : Nat) (pass : Bool) (s : State) : Out :=
  match unit with
  | .localMem q =>
    if !(s.quad q).testing.contains bank then .next s
    else
      let t := s.modQuad q (fun y => { y with testing := y.testing.filter (fun b => b ≠ bank) })
      if pass then .next ((t.modQuad q (fun y => { y with spares := y.spares + 1 })).softEvent q 0x01)
      else
        let u := (t.modQuad q (fun y => { y with retired := bank :: y.retired })).softEvent q 0x02
        let v := u.pendQuad q
        .next (if (v.quad q).failed then v.failQuad q else v)
  | u =>
    if !s.hub.testing.contains u then .next s
    else
      let t := s.modHub (fun h => { h with testing := h.testing.filter (fun x => x ≠ u) })
      .next (if pass then t.testEvent u 0x01 else (t.testEvent u 0x02).retireUnit u)

/-! Soft errors (R204). -/

/-- The bank of a local-memory byte (R84). -/
def localBank (pa : Nat) : Nat := localOff pa / 16 % 32

/-- A targeted self-test starts: the bank's bytes are served from a spare meanwhile. With no spare left the unit has
failed. -/
def State.startTest (s : State) (u : TestUnit) (bank : Nat := 0) : State :=
  match u with
  | .localMem q =>
    let x := s.quad q
    if x.testing.contains bank then s
    else if x.spares = 0 then s.failQuad q
    else s.modQuad q (fun y => { y with testing := bank :: y.testing, spares := y.spares - 1 })
  | v => if s.hub.testing.contains v then s else s.modHub (fun h => { h with testing := v :: h.testing })

/-- An uncorrectable error in a line of an L1: a dirty one's word is poisoned, a clean one dropped. -/
def State.spoilL1 (s : State) (n line word : Nat) : State :=
  match (s.core n).l1.find? (fun x => x.line == line) with
  | some x =>
    if x.dirty then s.addPoison (64 * line + 8 * (word % 8)) true
    else s.modCore n (fun c => { c with l1 := c.l1.filter (fun y => y.line != line) })
  | none => s

/-- An uncorrectable error in a line of a slice, likewise; under an L1 that holds the line dirty, its data is stale. -/
def State.spoilL2 (s : State) (t line word : Nat) : State :=
  match (s.tile t).l2.find? (fun x => x.line == line) with
  | some x =>
    if x.dirty then s.addPoison (64 * line + 8 * (word % 8)) true
    else if (tileCores t).any (fun n => (s.core n).l1.any (fun y => y.line == line && y.dirty)) then s
    else s.dropLine t line
  | none => s

/-- An error in a memory: corrected, or its granule is poisoned; a copy that can be fetched again is dropped. In an SRAM
a self-test follows. -/
def execSoftError (place : SoftPlace) (correctable : Bool) (s : State) : Out :=
  let spoil (f : State → State) : State := if correctable then s else f s
  match place with
  | .mem pa =>
    let t := spoil (fun u => u.addPoison pa)
    .next (if isLocal pa then t.startTest (.localMem (localQuad pa)) (localBank pa)
      else if isSvc pa then t.startTest (.service ((pa - svcBase) / 0x100000)) else t)
  | .code n k w =>
    .next ((spoil (fun u => u.modSlot n k (fun x =>
      { x with poison := if x.poison.contains w then x.poison else w :: x.poison }))).startTest (.code n))
  | .l1 n line w => .next ((spoil (fun u => u.spoilL1 n line w)).startTest (.l1 n))
  | .l2 t line w => .next ((spoil (fun u => u.spoilL2 t line w)).startTest (.l2 t))
  | .coreTlb n i => .next ((spoil (fun u => u.modCore n (fun c => { c with tlb := dropAt c.tlb i }))).startTest (.coreTlb n))
  | .sharedTlb t i => .next ((spoil (fun u => u.modTile t (fun x => { x with tlb := dropAt x.tlb i }))).startTest (.sharedTlb t))
  | .acc q e =>
    .next ((spoil (fun u => u.modQuad q (fun x =>
      { x with accPoison := if x.accPoison.contains (e / 2) then x.accPoison else (e / 2) :: x.accPoison }))).startTest (.acc q))

/-! Sleeping participants (R279). -/

/-- A message of network 1 reaches a participant, which wakes, gives up the line where it is an INV or RCL, and answers. -/
def execHomeAgentProbe (line p : Nat) (s : State) : Out :=
  let e := s.dirOf line
  if e.wait.contains p then
    .next ((s.setDir line { e with wait := e.wait.filter (fun x => x ≠ p) }).answers e line p)
  else .next s

/-- The answer of a participant is overdue: after 1 us, or 4 us of one marked as power-gated. -/
def State.overdue (s : State) (e : DirEntry) (p : Nat) : Bool :=
  ((mapGet e.sent p).getD (0, 0)).1 + (if p < 48 && (s.tile p).gated then 4000 else 1000) ≤ s.hub.now

/-- A participant is reported as failed, under the rule of R205: a tile's quads; of the hub's CXL side the report only. -/
def State.failPart (s : State) (p : Nat) : State :=
  if p < 48 then (tileQuads p).foldl (fun v q => v.failQuad q) s else s.send (.failed 384)

/-- Waits for an answer expire: each message overdue is sent again, at most three times; then its participant has
failed, and the wait goes on without it. -/
def execHomeMessageTimeout (line : Nat) (s : State) : Out :=
  let e := s.dirOf line
  let late := e.wait.filter (fun p => s.overdue e p)
  let tries (p : Nat) : Nat := ((mapGet e.sent p).getD (0, 0)).2
  let again := late.filter (fun p => tries p < 3)
  let failed := late.filter (fun p => tries p ≥ 3)
  if late.isEmpty then .next s
  else
    let t := s.setDir line { e with
      wait := e.wait.filter (fun p => !failed.contains p),
      sent := again.foldl (fun m p => mapSet m p (s.hub.now, tries p + 1)) e.sent }
    .next (failed.foldl (fun u p => u.failPart p) t)

def execParticipantReportsGated (p : Nat) (s : State) : Out := .next (s.modTile p (fun x => { x with gated := true }))

/-! Words that are no instruction (R75). -/

/-- The trap of a word that the decoder rejects, at the context that issues it. -/
def execIllegalInstruction (cause : BitVec 6) (word : W32) (s : State) : Out := refusedWord cause (word.zeroExtend 64) s

end Sys2Proof.Machine
end

