-- ==== Sys2Proof/Machine/Hosts.lean ====
section
/-!
DEFINITION. The world outside: configuration by the hypervisor (R371 to R375, R270), rings re-read (R324), the register
page, host waiters and reports (R368, R369, R381), links (R376), resets and firmware (R382).
-/

namespace Sys2Proof.Machine

/-! Configuration (R371 to R375). -/

/-- A VF has no hoop, no queued or held launch, and no AWAY context. -/
def State.vfIdle (s : State) (v : Nat) : Bool :=
  !s.hub.hoops.any (fun h => h.2.record.vf = v) &&
    (fromTo 0 8).all (fun q => match s.queue v q with | some x => x.records.isEmpty && x.held.isEmpty | none => true) &&
    s.allCtxs.all (fun c => c.2.2.st != .away || (s.quad (quadOf c.1)).vf != v)

/-- The VFs of a partition. -/
def State.vfsOf (s : State) (p : Nat) : List Nat := (s.hub.vfs.filter (fun v => v.2.record.part = p)).map (fun v => v.1)

/-- A VF record is within every stated limit (R372). -/
def State.vfRecordOk (s : State) (v : Nat) (r : VfRecord) : Bool :=
  let others := ((s.hub.vfs.filter (fun x => x.1 ≠ v)).map (fun x => x.2.record.wwq)).sum
  v < 384 && r.part < 384 && others + r.wwq ≤ 4096 && fld r.root 62 52 = 0 && fld r.root 8 0 = 0 &&
    r.hentry.toNat % 4 = 0 && r.fring.toNat % 64 = 0 && r.scva.toNat % 64 = 0 && r.hwring.toNat % 64 = 0 &&
    r.weights.length = 8 && r.slices.length = 8 && r.weights.all (fun w => w ≤ 255) &&
    r.slices.all (fun x => 50 ≤ x && x ≤ 100000) && r.rsvd.all (fun b => b = 0)

/-- The record differs only in what may change at any time (R375). -/
def sameVfRecord (a b : VfRecord) : Bool :=
  a.root == b.root && a.part == b.part && a.hentry == b.hentry && a.fring == b.fring && a.scva == b.scva && a.hwring == b.hwring

/-- The queues of a VF follow its weights: a new one has deficit 0, one of weight 0 is gone (R53), with the records queued
and held in it, of which the manual says nothing (DESIGN CHOICE, log 68). -/
def State.configureQueues (s : State) (v : Nat) (r : VfRecord) : State :=
  (fromTo 0 8).foldl (fun t q =>
    let w := (r.weights[q]?).getD 0
    let sl := (r.slices[q]?).getD 0
    t.modHub (fun h =>
      { h with queues :=
          if w = 0 then mapErase h.queues (8 * v + q)
          else match mapGet h.queues (8 * v + q) with
            | some x => mapSet h.queues (8 * v + q) { x with weight := w, slice := sl }
            | none => mapSet h.queues (8 * v + q) ⟨w, sl, 0, 0, [], []⟩ })) s

/-- The frames of a VF's system-call area, pinned by 4 KiB page of it: 384 pages, one more where it starts inside one
(R329). -/
def State.pinCalls (s : State) (v : Nat) : State :=
  let a := (s.vf v).record.scva.toNat
  let frames : Map Nat :=
    if a = 0 then []
    else (fromTo 0 (if a % 4096 = 0 then 384 else 385)).filterMap (fun i =>
      (s.hubPa v (4096 * (a / 4096 + i))).map (fun pa => (i, pa)))
  s.modVf v (fun x => { x with scFrames := frames })

def execVfConfiguration (v : Nat) (r : VfRecord) (s : State) : Out :=
  let idle := s.vfIdle v
  if s.vfRecordOk v r && (idle || sameVfRecord (s.vf v).record r) then
    let t := s.modVf v (fun x => { x with record := r })
    .next (((if idle then t.pinCalls v else t).configureQueues v r).refill r.part)
  else .next (s.send (.refused v))

/-- A range of physical memory lies in HBM. -/
def inHbm (a n : Nat) : Bool := isHbm a && a + n ≤ hbmEnd

/-- A partition record is within every stated limit (R343, R373, R374). -/
def State.partRecordOk (s : State) (p : Nat) (r : PartRecord) : Bool :=
  let n := r.quads.length
  p < 384 && r.quads.Nodup && r.quads.all (fun q => q < 384 && ((s.quad q).part.isNone || (s.quad q).part == some p)) &&
    r.save ≠ 0 && r.save % 4096 = 0 && 0x100 + n * 0x248000 ≤ r.saveSize && inHbm r.save r.saveSize &&
    r.evring % 64 = 0 && r.ceil ≤ 2 &&
    r.taskArea % 4096 = 0 && n * 0x24000 ≤ r.taskSize && inHbm r.taskArea r.taskSize

/-- The record differs in CEIL only. -/
def samePartRecord (a b : PartRecord) : Bool := decide ({ a with ceil := 0 } = { b with ceil := 0 })

def execPartitionConfiguration (p : Nat) (r : PartRecord) (s : State) : Out :=
  let x := s.part p
  let now := x.record
  let idle := (s.vfsOf p).all (fun v => s.vfIdle v) && x.shelf.isEmpty &&
    (match x.gang with | none => true | some g => g.phase = .failed)
  let fixed := (mapGet s.hub.parts p).isSome && samePartRecord now r
  if s.partRecordOk p r && (idle || fixed) then
    let sorted := { r with quads := r.quads.mergeSort (fun a b => a ≤ b) }
    if fixed && !idle then .next (s.modPart p (fun x => { x with record := sorted }))
    else
      let gone := now.quads.filter (fun q => !r.quads.contains q && (s.quad q).part = some p)
      let t := gone.foldl (fun u q => (u.leavePart q).disown (s.quad q).vf) s
      let u := (r.quads.filter (fun q => (s.quad q).part ≠ some p)).foldl (fun w q => w.joinPart q p) t
      .next (u.modPart p (fun x => { x with record := sorted, gang := none }))
  else .next (s.send (.refused p))

/-- The hypervisor assigns a quad to a VF of its partition. From another VF, what the quad's ended hoops have left in
flight is finished, the table operations of their contexts too, which may take its time, and the quad is scrubbed (R9, R32,
R375). -/
def execQuadVfAssign (q v : Nat) (s : State) : Out :=
  let x := s.quad q
  if q < 384 && v < 384 && x.part.isSome && x.part == some (s.vf v).record.part && (mapGet s.hub.vfs v).isSome &&
      (quadCores q).all (fun n => (s.core n).hoop.isNone) then
    if x.vf = v then .next s
    else
      let t := s.quadOps q
      if !t.opsEnded q then .next t else .next ((((t.drainQuad q).scrub q).giveVf q v).disown x.vf)
  else .next (s.send (.refused q))

/-- The hypervisor assigns a range-table entry to a VF (R270); an entry taken from another VF is invalid (log 34). -/
def execRangeTableConfiguration (e v : Nat) (s : State) : Out :=
  if e < 256 && v < 384 then
    match mapGet s.hub.ranges e with
    | some x =>
      if x.vf = some v then .next s
      else if (s.toMove e).any (fun l => s.deferred l 13 none) then .next s
      else .next ((s.dropOps (fun o => match o with | .rangeset j _ _ => j = e | _ => false)).setRange e 0 0 (some v))
    | none => .next (s.setRange e 0 0 (some v))
  else .next (s.send (.refused e))

/-! Rings (R324). -/

/-- The ring a number names: fault rings 0 to 383, host wake rings from 384 on, event rings from 768 on. -/
def ringNumber (n : Nat) : RingRef := if n < 384 then .fault n else if n < 768 then .host (n - 384) else .event (n - 768)

/-- Records held for a ring are written while it has room. -/
def State.drainRing (s : State) (r : RingRef) : Nat → State
  | 0 => s
  | n + 1 =>
    match s.ringHeld r with
    | [] => s
    | b :: rest =>
      match s.ringWrite r b with
      | none => s
      | some t => ((t.1.setRingHeld r rest).wakeAll t.2).drainRing r n

/-- The hub re-reads CONS of a ring. -/
def execRingConsPoll (n : Nat) (s : State) : Out := .next (s.drainRing (ringNumber n) (s.ringHeld (ringNumber n)).length)

/-! Host waiters (R369). -/

/-- The host entry that the words of HWATCH register. -/
def hostEntry (vf : Nat) (w : List W64) : WaitEntry :=
  let w0 := (w[0]?).getD 0
  { latch := false, mode := fld w0 61 60, va := fld w0 55 3 * 8, target := (w[1]?).getD 0, vf := vf,
    waiter := .host (fld ((w[2]?).getD 0) 14 0), loc := false, quad := 0, hoop := none, asked := fld w0 55 3 * 8 }

/-- Commits HWATCH: refused when the quota is in use; MODE 1 is tested as a level at registration (R286). -/
def State.hostWatch (s : State) (vf : Nat) : State :=
  let full := s.waitsOf vf ≥ (s.vf vf).record.wwq
  let t := s.modPage vf (fun p => { p with hwstat := full })
  if full then t
  else
    let e := hostEntry vf (s.page vf).hwatch
    let u := t.modHub (fun h => { h with waits := h.waits ++ [e] })
    let met := e.mode = 1 && (match s.hubPa vf e.va with | some pa => e.target.toNat ≤ s.view pa 8 | none => false)
    if met then
      let r := u.wakeStep (fun x => x == e)
      r.1.wakeAll r.2
    else u

/-- Word i of HWATCH written. -/
def RegPage.setWatch (p : RegPage) (i : Nat) (v : W64) : RegPage :=
  { p with hwatch := (p.hwatch ++ List.replicate 4 0).take 4 |>.set i v }

def execHwatchCommit (vf : Nat) (w3 : W64) (s : State) : Out :=
  .next ((s.modPage vf (fun p => p.setWatch 3 w3)).hostWatch vf)

/-- HCANCEL: the host entry of a token is released. -/
def State.hostCancel (s : State) (vf token : Nat) : State :=
  s.modHub (fun h => { h with waits := h.waits.filter (fun e => !(e.vf == vf && e.waiter == .host (token % 2 ^ 15))) })
def execHcancelWrite (vf token : Nat) (s : State) : Out := .next (s.hostCancel vf token)

/-- Reset of a VF: its host entries are released. -/
def execVfReset (vf : Nat) (s : State) : Out :=
  .next (s.modHub (fun h =>
    { h with waits := h.waits.filter (fun e => !(e.vf == vf && (match e.waiter with | .host _ => true | _ => false))) }))

/-! Usage reports (R304, R381). -/

/-- The controller begins with its oldest request: DONE is cleared and the nonce read. -/
def State.startReport (s : State) : State :=
  match s.hub.reports with
  | ⟨vf, dest, none⟩ :: rest =>
    (s.modHub (fun h => { h with reports := ⟨vf, dest, some (s.page dest).nonce⟩ :: rest })).modPage dest (fun p => { p with done := false })
  | _ => s

/-- A request by a register page for a report of a VF; one while the page's last is outstanding is ignored. -/
def State.askReport (s : State) (vf dest : Nat) : State :=
  if s.hub.reports.any (fun r => r.dest = dest) then s
  else (s.modHub (fun h => { h with reports := h.reports ++ [⟨vf, dest, none⟩] })).startReport
def execReportRequest (vf requester : Nat) (s : State) : Out := .next (s.askReport vf requester)
/-- A request by a link: a VF number and a nonce, 50 bytes. -/
def execLinkReportRequest (port vf : Nat) (nonce : BitVec 384) (s : State) : Out :=
  .next ((s.chargeLink vf 50).modHub (fun h => { h with reports := h.reports ++ [⟨vf, 1000 + port, some nonce⟩] }))

/-- The bytes of a report up to the signature. -/
def reportBody (s : State) (vf number : Nat) (nonce : BitVec 384) : List Byte :=
  let u := s.usage vf
  toLE 8 1 ++ toLE 2 vf ++ toLE 6 0 ++ toLE 8 s.hub.now ++ toLE 8 number ++ toLE 48 nonce.toNat ++
    toLE 48 (Config.measurement s.hub.firmware).toNat ++ toLE 8 u.ctxcyc ++ toLE 8 u.mxops ++ toLE 8 u.hbmb ++
    toLE 8 u.linkb ++ toLE 8 (u.energy / 1024000) ++ toLE 8 (u.sprinte / 1024000)

/-- The controller has served its oldest request. HBMB has grown besides by the lines that walks read and that a part
whose caches choose other victims moves, a free amount (R303; log 20); the signature is a free value (log 16). -/
def execUsageReportComplete (s : State) : Out :=
  match s.hub.reports with
  | [] => .next s
  | r :: rest =>
    let d := s.draw
    let moved := (Config.freeValue d.1).toNat % 2 ^ 32 * 64
    let t := (d.2.modUsage r.vf (fun u => { u with hbmb := u.hbmb + moved })).modVf r.vf (fun x => { x with report := x.report + 1 })
    let number := (t.vf r.vf).report
    let bytes := reportBody t r.vf number (r.nonce.getD 0) ++ toLE 96 (Config.signature d.1).toNat
    let u := t.modHub (fun h => { h with reports := rest })
    let w := if r.dest ≥ 1000 then (u.chargeLink r.vf bytes.length).send (.report (r.dest - 1000) bytes)
      else u.modPage r.dest (fun p => { p with report := bytes, done := true })
    .next w.startReport

/-! The register page (R368). -/

/-- An 8-byte host write at an offset of a VF's page. -/
def execRegisterPageWrite (vf off : Nat) (data : W64) (s : State) : Out :=
  if off < 0x30 && off % 8 = 0 then
    .next (s.modPage vf (fun p =>
      let old := p.nonce.toNat / 2 ^ (8 * off) % 2 ^ 64
      { p with nonce := BitVec.ofNat 384 (p.nonce.toNat - old * 2 ^ (8 * off) + data.toNat * 2 ^ (8 * off)) }))
  else if off = 0x30 then
    (if data.getLsbD 0 then .next (s.askReport vf vf) else .next s)
  else if off = 0x40 || off = 0x48 || off = 0x50 then .next (s.modPage vf (fun p => p.setWatch ((off - 0x40) / 8) data))
  else if off = 0x58 then .next ((s.modPage vf (fun p => p.setWatch 3 data)).hostWatch vf)
  else if off = 0x68 then .next (s.hostCancel vf (fld data 14 0))
  else .next s

/-! Links (R376). -/

/-- Bytes that the operand and the result of an operation of a link make on its port (R303; log 35). -/
def linkIn (op size : Nat) : Nat := if op = 0 then 0 else if op = 11 then 2 * size else size
def linkOut (op size : Nat) : Nat := if op = 1 then 0 else size

/-- A memory operation from a link, at a virtual address of its VF (log 35): 0 read, 1 write, 2 + f the atomic f. One that
does not match the page's VF changes nothing; one that meets a retry, or a line its home defers (R40, R264), is not performed
yet and has no answer: the port makes it again. -/
def execLinkMemoryOperation (port vf op va size : Nat) (operand compare : W64) (s : State) : Out :=
  let refuse (u : State) : Out := .next (u.send (.link port 0 true))
  match s.walk vf va with
  | .leaf e =>
    if e.vft ≠ vf then refuse s
    else
      let pa := e.frame + (va - e.base)
      let t := s.chargeLink vf (linkIn op size)
      let answer (u : State) (v : Nat) : Out :=
        .next ((u.chargeLink vf (linkOut op size)).send (.link port (BitVec.ofNat 64 v) false))
      if !hostRun pa size || (size ≠ 4 && size ≠ 8) || pa % size ≠ 0 || (op ≠ 1 && (fromTo pa size).any (fun a => t.poisoned a)) then
        refuse t
      else
        let m := 256 ^ size
        let old := t.view pa size
        let ev := if op = 0 then 5 else if op = 1 then 6 else 7
        if s.homeBusy [(pa, size)] ev (some 48) then .next (s.askAgain [lineOf pa] ev (some 48))
        else if op = 0 then answer (t.homeServe (lineOf pa) 5 (some 48)) old
        else if op = 1 then
          if t.refuses pa 6 then refuse t else answer (t.hostPerform pa 6 (some (toLE size (operand.toNat % m))) false) 0
        else if t.refuses pa 7 || op > 11 then refuse t
        else
          let new := if op = 11 && old ≠ compare.toNat % m then none
            else some (toLE size (amoNew size (op - 2) old (operand.toNat % m) (compare.toNat % m)))
          answer (t.hostPerform pa 7 new (op = 2)) old
  | _ => refuse s

/-! Firmware and reset (R382). -/

/-- The hypervisor stages an image, which takes effect at the next reset. -/
def execFirmwareUpdate (version : Nat) (s : State) : Out := .next (s.modHub (fun h => { h with staged := some version }))

/-- A reset: the controller verifies and measures the image, and refuses one below the rollback counter; then the
device does not start. -/
def execDeviceReset (s : State) : Out :=
  let v := s.hub.staged.getD s.hub.firmware
  let ok := Config.firmwareVerifies v && s.hub.rollback ≤ v
  .next { State.reset with
    hub := { Hub.reset with firmware := v, rollback := s.hub.rollback, started := ok },
    schedule := s.schedule, choices := s.choices, draws := s.draws }

end Sys2Proof.Machine
end

