-- ==== Sys2Proof/Machine/Dispatch.lean ====
section
/-!
DEFINITION. The meaning of each row of the opcode table: one arm per constructor.
-/

namespace Sys2Proof.Machine

def exec (i : Instr) (s : State) : Host.Outcome State Fault Refusal :=
  match i with
  | .imm p => Sys2Proof.Machine.execImm p s
  | .onnr o => Sys2Proof.Machine.execOnnr o s
  | .hint u l k => Sys2Proof.Machine.execHint u l k s
  | .mod m e c => Sys2Proof.Machine.execMod m e c s
  | .nop => Sys2Proof.Machine.execNop s
  | .add g d a b => Sys2Proof.Machine.execAdd g d a b s
  | .sub g d a b => Sys2Proof.Machine.execSub g d a b s
  | .mul g d a b => Sys2Proof.Machine.execMul g d a b s
  | .mulh g d a b => Sys2Proof.Machine.execMulh g d a b s
  | .mulhu g d a b => Sys2Proof.Machine.execMulhu g d a b s
  | .div g d a b => Sys2Proof.Machine.execDiv g d a b s
  | .divu g d a b => Sys2Proof.Machine.execDivu g d a b s
  | .rem g d a b => Sys2Proof.Machine.execRem g d a b s
  | .remu g d a b => Sys2Proof.Machine.execRemu g d a b s
  | .and g d a b => Sys2Proof.Machine.execAnd g d a b s
  | .or g d a b => Sys2Proof.Machine.execOr g d a b s
  | .xor g d a b => Sys2Proof.Machine.execXor g d a b s
  | .shl g d a b => Sys2Proof.Machine.execShl g d a b s
  | .shr g d a b => Sys2Proof.Machine.execShr g d a b s
  | .sar g d a b => Sys2Proof.Machine.execSar g d a b s
  | .rot g d a b => Sys2Proof.Machine.execRot g d a b s
  | .min g d a b => Sys2Proof.Machine.execMin g d a b s
  | .max g d a b => Sys2Proof.Machine.execMax g d a b s
  | .minu g d a b => Sys2Proof.Machine.execMinu g d a b s
  | .maxu g d a b => Sys2Proof.Machine.execMaxu g d a b s
  | .clz g d a => Sys2Proof.Machine.execClz g d a s
  | .ctz g d a => Sys2Proof.Machine.execCtz g d a s
  | .popc g d a => Sys2Proof.Machine.execPopc g d a s
  | .mov g d a => Sys2Proof.Machine.execMov g d a s
  | .ext g d a b => Sys2Proof.Machine.execExt g d a b s
  | .extS g d a b => Sys2Proof.Machine.execExtS g d a b s
  | .ins g d a b => Sys2Proof.Machine.execIns g d a b s
  | .lea g d a b e => Sys2Proof.Machine.execLea g d a b e s
  | .sel g d a b n q => Sys2Proof.Machine.execSel g d a b n q s
  | .addi g d a j => Sys2Proof.Machine.execAddi g d a j s
  | .movi g d j => Sys2Proof.Machine.execMovi g d j s
  | .andi g d a j => Sys2Proof.Machine.execAndi g d a j s
  | .ori g d a j => Sys2Proof.Machine.execOri g d a j s
  | .xori g d a j => Sys2Proof.Machine.execXori g d a j s
  | .shli g d a n => Sys2Proof.Machine.execShli g d a n s
  | .shri g d a n => Sys2Proof.Machine.execShri g d a n s
  | .sari g d a n => Sys2Proof.Machine.execSari g d a n s
  | .cmp g p e a b c => Sys2Proof.Machine.execCmp g p e a b c s
  | .cmpi g p e a j c => Sys2Proof.Machine.execCmpi g p e a j c s
  | .pand g d a b => Sys2Proof.Machine.execPand g d a b s
  | .por g d a b => Sys2Proof.Machine.execPor g d a b s
  | .pxor g d a b => Sys2Proof.Machine.execPxor g d a b s
  | .pnot g d a => Sys2Proof.Machine.execPnot g d a s
  | .br g o => Sys2Proof.Machine.execBr g o s
  | .jmp o => Sys2Proof.Machine.execJmp o s
  | .call g o => Sys2Proof.Machine.execCall g o s
  | .loop g d j => Sys2Proof.Machine.execLoop g d j s
  | .jmpr g a => Sys2Proof.Machine.execJmpr g a s
  | .callr g a => Sys2Proof.Machine.execCallr g a s
  | .ret g a => Sys2Proof.Machine.execRet g a s
  | .jseg g a => Sys2Proof.Machine.execJseg g a s
  | .yield g => Sys2Proof.Machine.execYield g s
  | .parkGe g a b => Sys2Proof.Machine.execParkGe g a b s
  | .parkNbS g n => Sys2Proof.Machine.execParkNbS g n s
  | .parkNbV g n => Sys2Proof.Machine.execParkNbV g n s
  | .parkWatch g a => Sys2Proof.Machine.execParkWatch g a s
  | .exit g => Sys2Proof.Machine.execExit g s
  | .vadd g d a b => Sys2Proof.Machine.execVadd g d a b s
  | .vsub g d a b => Sys2Proof.Machine.execVsub g d a b s
  | .vmul g d a b => Sys2Proof.Machine.execVmul g d a b s
  | .vmad g d a b => Sys2Proof.Machine.execVmad g d a b s
  | .vand g d a b => Sys2Proof.Machine.execVand g d a b s
  | .vor g d a b => Sys2Proof.Machine.execVor g d a b s
  | .vxor g d a b => Sys2Proof.Machine.execVxor g d a b s
  | .vshl g d a b => Sys2Proof.Machine.execVshl g d a b s
  | .vshr g d a b => Sys2Proof.Machine.execVshr g d a b s
  | .vsar g d a b => Sys2Proof.Machine.execVsar g d a b s
  | .vmin g d a b t => Sys2Proof.Machine.execVmin g d a b t s
  | .vmax g d a b t => Sys2Proof.Machine.execVmax g d a b t s
  | .vabs g d a => Sys2Proof.Machine.execVabs g d a s
  | .vsel g d a b => Sys2Proof.Machine.execVsel g d a b s
  | .vshuf g d a b => Sys2Proof.Machine.execVshuf g d a b s
  | .vrot g d a b => Sys2Proof.Machine.execVrot g d a b s
  | .vcmp g p a b c => Sys2Proof.Machine.execVcmp g p a b c s
  | .vbcast g e v => Sys2Proof.Machine.execVbcast g e v s
  | .vlane g v => Sys2Proof.Machine.execVlane g v s
  | .vredAdd g e v => Sys2Proof.Machine.execVredAdd g e v s
  | .vredAnd g e v => Sys2Proof.Machine.execVredAnd g e v s
  | .vredOr g e v => Sys2Proof.Machine.execVredOr g e v s
  | .vredXor g e v => Sys2Proof.Machine.execVredXor g e v s
  | .vredMin g e v t => Sys2Proof.Machine.execVredMin g e v t s
  | .vredMax g e v t => Sys2Proof.Machine.execVredMax g e v t s
  | .vfredAdd g e v => Sys2Proof.Machine.execVfredAdd g e v s
  | .vfredMin g e v => Sys2Proof.Machine.execVfredMin g e v s
  | .vfredMax g e v => Sys2Proof.Machine.execVfredMax g e v s
  | .vfadd g d a b => Sys2Proof.Machine.execVfadd g d a b s
  | .vfsub g d a b => Sys2Proof.Machine.execVfsub g d a b s
  | .vfmul g d a b => Sys2Proof.Machine.execVfmul g d a b s
  | .vfma g d a b => Sys2Proof.Machine.execVfma g d a b s
  | .vfms g d a b => Sys2Proof.Machine.execVfms g d a b s
  | .vfnma g d a b => Sys2Proof.Machine.execVfnma g d a b s
  | .vfmin g d a b => Sys2Proof.Machine.execVfmin g d a b s
  | .vfmax g d a b => Sys2Proof.Machine.execVfmax g d a b s
  | .vfabs g d a => Sys2Proof.Machine.execVfabs g d a s
  | .vfneg g d a => Sys2Proof.Machine.execVfneg g d a s
  | .vfrcp g d a => Sys2Proof.Machine.execVfrcp g d a s
  | .vfrsq g d a => Sys2Proof.Machine.execVfrsq g d a s
  | .vfsqrt g d a => Sys2Proof.Machine.execVfsqrt g d a s
  | .vfexp2 g d a => Sys2Proof.Machine.execVfexp2 g d a s
  | .vflog2 g d a => Sys2Proof.Machine.execVflog2 g d a s
  | .vfclass g d a => Sys2Proof.Machine.execVfclass g d a s
  | .vfcmp g p a b c => Sys2Proof.Machine.execVfcmp g p a b c s
  | .vcvtF2x g d a f => Sys2Proof.Machine.execVcvtF2x g d a f s
  | .vcvtX2f g d a f => Sys2Proof.Machine.execVcvtX2f g d a f s
  | .vcvtF2i g d a => Sys2Proof.Machine.execVcvtF2i g d a s
  | .vcvtF2u g d a => Sys2Proof.Machine.execVcvtF2u g d a s
  | .vcvtI2f g d a => Sys2Proof.Machine.execVcvtI2f g d a s
  | .vcvtU2f g d a => Sys2Proof.Machine.execVcvtU2f g d a s
  | .vpack g d a f p => Sys2Proof.Machine.execVpack g d a f p s
  | .vunpk g d a f p => Sys2Proof.Machine.execVunpk g d a f p s
  | .vfrnd g d a => Sys2Proof.Machine.execVfrnd g d a s
  | .fadd g d a b => Sys2Proof.Machine.execFadd g d a b s
  | .fsub g d a b => Sys2Proof.Machine.execFsub g d a b s
  | .fmul g d a b => Sys2Proof.Machine.execFmul g d a b s
  | .ffma g d a b => Sys2Proof.Machine.execFfma g d a b s
  | .fmin g d a b => Sys2Proof.Machine.execFmin g d a b s
  | .fmax g d a b => Sys2Proof.Machine.execFmax g d a b s
  | .fcvtF2x g d a f => Sys2Proof.Machine.execFcvtF2x g d a f s
  | .fcvtX2f g d a f => Sys2Proof.Machine.execFcvtX2f g d a f s
  | .fcvtF2i g d a => Sys2Proof.Machine.execFcvtF2i g d a s
  | .fcvtF2u g d a => Sys2Proof.Machine.execFcvtF2u g d a s
  | .fcvtI2f g d a => Sys2Proof.Machine.execFcvtI2f g d a s
  | .fcvtU2f g d a => Sys2Proof.Machine.execFcvtU2f g d a s
  | .fcmp g p e a b c => Sys2Proof.Machine.execFcmp g p e a b c s
  | .mxmul g d a b => Sys2Proof.Machine.execMxmul g d a b s
  | .mxmuls g d a b => Sys2Proof.Machine.execMxmuls g d a b s
  | .mxfetch g a b => Sys2Proof.Machine.execMxfetch g a b s
  | .mxprog g a b => Sys2Proof.Machine.execMxprog g a b s
  | .mxdef g => Sys2Proof.Machine.execMxdef g s
  | .mxscl g a => Sys2Proof.Machine.execMxscl g a s
  | .mxrd g d a => Sys2Proof.Machine.execMxrd g d a s
  | .mxwr g d a => Sys2Proof.Machine.execMxwr g d a s
  | .mxzero g d => Sys2Proof.Machine.execMxzero g d s
  | .mxdrain g a => Sys2Proof.Machine.execMxdrain g a s
  | .mxstat g d => Sys2Proof.Machine.execMxstat g d s
  | .mxclr g => Sys2Proof.Machine.execMxclr g s
  | .mxcap g d a b => Sys2Proof.Machine.execMxcap g d a b s
  | .mxcmd g d a => Sys2Proof.Machine.execMxcmd g d a s
  | .ld g d a k o => Sys2Proof.Machine.execLd g d a k o s
  | .st g d a k o => Sys2Proof.Machine.execSt g d a k o s
  | .lda g d a n z o => Sys2Proof.Machine.execLda g d a n z o s
  | .vld g d a o => Sys2Proof.Machine.execVld g d a o s
  | .vst g d a o => Sys2Proof.Machine.execVst g d a o s
  | .vlda g d a k o => Sys2Proof.Machine.execVlda g d a k o s
  | .vlds g d a b => Sys2Proof.Machine.execVlds g d a b s
  | .vsts g d a b => Sys2Proof.Machine.execVsts g d a b s
  | .vldx g d a v => Sys2Proof.Machine.execVldx g d a v s
  | .vstx g d a v => Sys2Proof.Machine.execVstx g d a v s
  | .ldl g d a b z => Sys2Proof.Machine.execLdl g d a b z s
  | .stl g d a b z => Sys2Proof.Machine.execStl g d a b z s
  | .pst g d a z => Sys2Proof.Machine.execPst g d a z s
  | .pref g a => Sys2Proof.Machine.execPref g a s
  | .cfetch g a e => Sys2Proof.Machine.execCfetch g a e s
  | .flush g a => Sys2Proof.Machine.execFlush g a s
  | .amo z g d a b f => Sys2Proof.Machine.execAmo z g d a b f s
  | .red z g a b f => Sys2Proof.Machine.execRed z g a b f s
  | .tladd g e a b => Sys2Proof.Machine.execTladd g e a b s
  | .waitge g e a b => Sys2Proof.Machine.execWaitge g e a b s
  | .waita g n => Sys2Proof.Machine.execWaita g n s
  | .watch g m a b => Sys2Proof.Machine.execWatch g m a b s
  | .wake g a => Sys2Proof.Machine.execWake g a s
  | .bara g d a b => Sys2Proof.Machine.execBara g d a b s
  | .barw g a b => Sys2Proof.Machine.execBarw g a b s
  | .cpset g a r => Sys2Proof.Machine.execCpset g a r s
  | .cpgo g d => Sys2Proof.Machine.execCpgo g d s
  | .cppb g d a => Sys2Proof.Machine.execCppb g d a s
  | .cpq g d a => Sys2Proof.Machine.execCpq g d a s
  | .nput g t a d c v => Sys2Proof.Machine.execNput g t a d c v s
  | .ntake g t a v => Sys2Proof.Machine.execNtake g t a v s
  | .send g a b => Sys2Proof.Machine.execSend g a b s
  | .recv g d c => Sys2Proof.Machine.execRecv g d c s
  | .recvPark g c => Sys2Proof.Machine.execRecvPark g c s
  | .pipeput g a b => Sys2Proof.Machine.execPipeput g a b s
  | .pipeget g d a => Sys2Proof.Machine.execPipeget g d a s
  | .susp g a b => Sys2Proof.Machine.execSusp g a b s
  | .taskpop g => Sys2Proof.Machine.execTaskpop g s
  | .taskpush g b => Sys2Proof.Machine.execTaskpush g b s
  | .launch g a b => Sys2Proof.Machine.execLaunch g a b s
  | .sysc g d => Sys2Proof.Machine.execSysc g d s
  | .syscNb g a b => Sys2Proof.Machine.execSyscNb g a b s
  | .jrnl g d a => Sys2Proof.Machine.execJrnl g d a s
  | .relst g d a e z => Sys2Proof.Machine.execRelst g d a e z s
  | .acqld g d a e z => Sys2Proof.Machine.execAcqld g d a e z s
  | .fence g e => Sys2Proof.Machine.execFence g e s
  | .trap g c => Sys2Proof.Machine.execTrap g c s
  | .tret g => Sys2Proof.Machine.execTret g s
  | .movc g d c => Sys2Proof.Machine.execMovc g d c s
  | .movcw g c b => Sys2Proof.Machine.execMovcw g c b s
  | .sprint g a b => Sys2Proof.Machine.execSprint g a b s
  | .unsprint g => Sys2Proof.Machine.execUnsprint g s
  | .dbgbrk g => Sys2Proof.Machine.execDbgbrk g s
  | .wspsw g a b => Sys2Proof.Machine.execWspsw g a b s
  | .tlbinv g a b => Sys2Proof.Machine.execTlbinv g a b s
  | .cultld g a b => Sys2Proof.Machine.execCultld g a b s
  | .rangeset g a b => Sys2Proof.Machine.execRangeset g a b s
  | .holdTimeout core ctx => Sys2Proof.Machine.execHoldTimeout core ctx s
  | .holdConditionClears core ctx => Sys2Proof.Machine.execHoldConditionClears core ctx s
  | .landingReservationExpiry core ctx => Sys2Proof.Machine.execLandingReservationExpiry core ctx s
  | .lineFillComplete core line => Sys2Proof.Machine.execLineFillComplete core line s
  | .pageWalkComplete core va => Sys2Proof.Machine.execPageWalkComplete core va s
  | .parkGeReadComplete core ctx => Sys2Proof.Machine.execParkGeReadComplete core ctx s
  | .nputLanding core ctx => Sys2Proof.Machine.execNputLanding core ctx s
  | .ldaLanding core ctx n => Sys2Proof.Machine.execLdaLanding core ctx n s
  | .vldaLanding core ctx n => Sys2Proof.Machine.execVldaLanding core ctx n s
  | .storePerformed core ctx n => Sys2Proof.Machine.execStorePerformed core ctx n s
  | .pstAcknowledge core entry => Sys2Proof.Machine.execPstAcknowledge core entry s
  | .pstRefusal core entry => Sys2Proof.Machine.execPstRefusal core entry s
  | .cfetchFillLanded core slot => Sys2Proof.Machine.execCfetchFillLanded core slot s
  | .fetchSlotFill q slot => Sys2Proof.Machine.execFetchSlotFill q slot s
  | .copyCounterAdd core slot => Sys2Proof.Machine.execCopyCounterAdd core slot s
  | .copySectorFault core slot => Sys2Proof.Machine.execCopySectorFault core slot s
  | .missedPromise core slot => Sys2Proof.Machine.execMissedPromise core slot s
  | .matrixOperationFinish q n => Sys2Proof.Machine.execMatrixOperationFinish q n s
  | .mxcmdArrival n => Sys2Proof.Machine.execMxcmdArrival n s
  | .mxcmdAcceptance q => Sys2Proof.Machine.execMxcmdAcceptance q s
  | .mxcmdRefusalReturn n => Sys2Proof.Machine.execMxcmdRefusalReturn n s
  | .flitArrival core ch => Sys2Proof.Machine.execFlitArrival core ch s
  | .scopeMissMessage n => Sys2Proof.Machine.execScopeMissMessage n s
  | .asyncTrapDelivery core ctx => Sys2Proof.Machine.execAsyncTrapDelivery core ctx s
  | .suspRegistration n => Sys2Proof.Machine.execSuspRegistration n s
  | .launchWindowWrite vf queue line off len data => Sys2Proof.Machine.execLaunchWindowWrite vf queue line off len data s
  | .launchPacket port seq scheduler r => Sys2Proof.Machine.execLaunchPacket port seq scheduler r s
  | .heldLaunchEnqueue vf queue => Sys2Proof.Machine.execHeldLaunchEnqueue vf queue s
  | .deficitCharge => Sys2Proof.Machine.execDeficitCharge s
  | .dispatch part => Sys2Proof.Machine.execDispatch part s
  | .segmentZeroLoad hoop => Sys2Proof.Machine.execSegmentZeroLoad hoop s
  | .hoopStart hoop => Sys2Proof.Machine.execHoopStart hoop s
  | .sliceExpiry hoop => Sys2Proof.Machine.execSliceExpiry hoop s
  | .doneAdd hoop => Sys2Proof.Machine.execDoneAdd hoop s
  | .l1UnfusionComplete q => Sys2Proof.Machine.execL1UnfusionComplete q s
  | .hoopAbort hoop => Sys2Proof.Machine.execHoopAbort hoop s
  | .debugStop core ctx => Sys2Proof.Machine.execDebugStop core ctx s
  | .debugRelease core ctx => Sys2Proof.Machine.execDebugRelease core ctx s
  | .debugStep core ctx => Sys2Proof.Machine.execDebugStep core ctx s
  | .debugFreeze hoop => Sys2Proof.Machine.execDebugFreeze hoop s
  | .debugThaw hoop => Sys2Proof.Machine.execDebugThaw hoop s
  | .gangSwitchRequest part time needed => Sys2Proof.Machine.execGangSwitchRequest part time needed s
  | .gangSwitchStop part => Sys2Proof.Machine.execGangSwitchStop part s
  | .gangSwitchSave part => Sys2Proof.Machine.execGangSwitchSave part s
  | .resume part => Sys2Proof.Machine.execResume part s
  | .quadVfAssign q vf => Sys2Proof.Machine.execQuadVfAssign q vf s
  | .vfConfiguration vf r => Sys2Proof.Machine.execVfConfiguration vf r s
  | .partitionConfiguration part r => Sys2Proof.Machine.execPartitionConfiguration part r s
  | .rangeTableConfiguration entry vf => Sys2Proof.Machine.execRangeTableConfiguration entry vf s
  | .localWindowEntryWrite core ctx n => Sys2Proof.Machine.execLocalWindowEntryWrite core ctx n s
  | .selfTestComplete unit bank pass => Sys2Proof.Machine.execSelfTestComplete unit bank pass s
  | .cultureRd line part => Sys2Proof.Machine.execCultureRd line part s
  | .cultureRdx line part => Sys2Proof.Machine.execCultureRdx line part s
  | .cultureWrl line part => Sys2Proof.Machine.execCultureWrl line part s
  | .cultureAmo line part => Sys2Proof.Machine.execCultureAmo line part s
  | .cultureRed line part => Sys2Proof.Machine.execCultureRed line part s
  | .cultureHrd pa size => Sys2Proof.Machine.execCultureHrd pa size s
  | .cultureHwr pa size data => Sys2Proof.Machine.execCultureHwr pa size data s
  | .cultureHamo op pa size operand compare => Sys2Proof.Machine.execCultureHamo op pa size operand compare s
  | .cultureEvc line part => Sys2Proof.Machine.execCultureEvc line part s
  | .cultureWb line part => Sys2Proof.Machine.execCultureWb line part s
  | .cultureAcq line part => Sys2Proof.Machine.execCultureAcq line part s
  | .cultureRel line part => Sys2Proof.Machine.execCultureRel line part s
  | .cultureFlush line => Sys2Proof.Machine.execCultureFlush line s
  | .cultureFlip line => Sys2Proof.Machine.execCultureFlip line s
  | .cultureAck line => Sys2Proof.Machine.execCultureAck line s
  | .cultureData line => Sys2Proof.Machine.execCultureData line s
  | .homeMessageTimeout line => Sys2Proof.Machine.execHomeMessageTimeout line s
  | .cultureCheckComplete core ctx => Sys2Proof.Machine.execCultureCheckComplete core ctx s
  | .rangesetPerformed core ctx => Sys2Proof.Machine.execRangesetPerformed core ctx s
  | .tlbinvPerformed core ctx => Sys2Proof.Machine.execTlbinvPerformed core ctx s
  | .ringConsPoll ring => Sys2Proof.Machine.execRingConsPoll ring s
  | .hwatchCommit vf word3 => Sys2Proof.Machine.execHwatchCommit vf word3 s
  | .hcancelWrite vf token => Sys2Proof.Machine.execHcancelWrite vf token s
  | .reportRequest vf requester => Sys2Proof.Machine.execReportRequest vf requester s
  | .linkReportRequest port vf nonce => Sys2Proof.Machine.execLinkReportRequest port vf nonce s
  | .usageReportComplete => Sys2Proof.Machine.execUsageReportComplete s
  | .registerPageWrite vf off data => Sys2Proof.Machine.execRegisterPageWrite vf off data s
  | .linkMemoryOperation port vf op pa size operand compare => Sys2Proof.Machine.execLinkMemoryOperation port vf op pa size operand compare s
  | .budgetTick power cold energy => Sys2Proof.Machine.execBudgetTick power cold energy s
  | .leaseExpiry q => Sys2Proof.Machine.execLeaseExpiry q s
  | .coolantAlarm => Sys2Proof.Machine.execCoolantAlarm s
  | .railStep tile => Sys2Proof.Machine.execRailStep tile s
  | .railHoldExpiry tile => Sys2Proof.Machine.execRailHoldExpiry tile s
  | .deviceReset => Sys2Proof.Machine.execDeviceReset s
  | .illegalInstruction cause word => Sys2Proof.Machine.execIllegalInstruction cause word s
  | .softError place correctable => Sys2Proof.Machine.execSoftError place correctable s
  | .homeAgentProbe line part => Sys2Proof.Machine.execHomeAgentProbe line part s
  | .deviceRequestRepeat core ctx n => Sys2Proof.Machine.execDeviceRequestRepeat core ctx n s
  | .participantReportsGated part => Sys2Proof.Machine.execParticipantReportsGated part s
  | .copyLastBytePerformed core slot => Sys2Proof.Machine.execCopyLastBytePerformed core slot s
  | .pinReleaseComplete tile => Sys2Proof.Machine.execPinReleaseComplete tile s
  | .vfReset vf => Sys2Proof.Machine.execVfReset vf s
  | .firmwareUpdate version => Sys2Proof.Machine.execFirmwareUpdate version s
  | .debuggerAttach hoop => Sys2Proof.Machine.execDebuggerAttach hoop s
  | .debuggerDetach hoop => Sys2Proof.Machine.execDebuggerDetach hoop s
  | .debugStateWrite core ctx what => Sys2Proof.Machine.execDebugStateWrite core ctx what s

end Sys2Proof.Machine
end

