-- ==== Sys2Proof/Machine/Issue.lean ====
section
/-!
DEFINITION. How an instruction comes to issue: the clock of a core (R28), the barrel rotation of compute and service
cores (R26, R27, R113, R335), operand arbitration (R84, R400, R401), fetch (R196, R372), the end of a chain under
FLAGS.STEP (R339); and which of the part's own steps may come next when no list of turns says it (log 3).
-/

namespace Sys2Proof.Machine

/-- The state after a step of the part that has an effect here. -/
def State.act (s : State) (i : Instr) : State := match exec i s with | .next t => t | _ => s

/-! Operand arbitration (R84, R400, R401; log 9). -/

/-- A register that HINT.REUSE keeps from the context's last instruction, not written since (R70; log 9). -/
def State.keptNow (s : State) (r : Reg) : Bool := s.cx.kept.contains r.span

/-- The bank reads that an instruction asks for: those that its replay has not won, or those of its fields in order. -/
def State.requests (s : State) (i : Instr) : List Nat :=
  match s.cx.owed with
  | some l => l
  | none =>
    if i.accepts s.cx.chain then ((s.fieldReads i).filter (fun r => !s.keptNow r)).flatMap (fun r => r.banks s.ws) else []

/-- Each bank grants one read: the banks granted after some requests, and the requests lost. -/
def arbitrate (taken : List Nat) : List Nat → List Nat × List Nat
  | [] => (taken, [])
  | b :: rest =>
    if taken.contains b then ((arbitrate taken rest).1, b :: (arbitrate taken rest).2) else arbitrate (b :: taken) rest

/-- A turn lost to conflicts: counted, and nothing else happens; the first one gives the instruction its age. -/
def State.loseTurn (s : State) (l : List Nat) : State :=
  let q := quadOf s.cur.core
  (l.foldl (fun t b => t.bump q (0x100 + 4 * b) 1 4) s).modCx (fun x =>
    { x with lost := x.lost + 1, owed := some l, age := if x.owed.isSome then x.age else (s.quad q).cycle })

/-- A slot taken by a replayed instruction is counted (R301); the service core has no such counter. -/
def State.countReplay (s : State) : State :=
  if s.cx.lost > 0 && !s.priv then
    s.bump (quadOf s.cur.core) (0x198 + 0x20 * coreInQuad s.cur.core) 1 8
  else s

/-! Fetch. -/

/-- The instruction of a word (R75): one that the decoder rejects is the trap of it, cause 0x01 first. -/
def State.instrOf (s : State) (w : W32) : Instr :=
  match decode w with
  | .ok i => i
  | .reserved i => .illegalInstruction (if i.accepts s.cx.chain then 0x02 else 0x01) w
  | .illegal => .illegalInstruction 0x01 w

/-- What a fetch gives. -/
inductive WordFetch where
  | word (w : W32)
  | trap (cause : BitVec 6) (tval : W64)
  /-- its page is in transit: an empty slot -/
  | later
  deriving DecidableEq, Repr

/-- Fetch of a compute core from the slot its PC names (R196, R204). Of a poisoned word TVAL is the virtual address, from
the slot's SVA on (log 37). -/
def State.fetch (s : State) : WordFetch :=
  let pc := s.wordPc
  let x := (s.core s.cur.core).slot (pcSlot pc)
  if x.state ≠ .landed then .trap 0x06 (pcReg pc)
  else if x.poison.contains (pcWord pc) then .trap 0x3B (x.sva + BitVec.ofNat 64 (4 * pcWord pc))
  else .word ((mapGet x.words (pcWord pc)).getD 0)

/-- Fetch of a handler from the segment that holds HENTRY (R335, R372; log 18). -/
def State.fetchHandler (s : State) : State × WordFetch :=
  let va := (s.vf s.myVf).record.hentry.toNat / 4096 * 4096 + 4 * pcWord s.wordPc
  match s.place s.me accX va with
  | (t, .bad c) => (t, .trap c (BitVec.ofNat 64 va))
  | (t, .at pa _ tr) =>
    if tr then (t, .later)
    else if t.poisoned pa then (t, .trap 0x3B (BitVec.ofNat 64 va))
    else (t, .word (BitVec.ofNat 32 (t.view pa 4)))

/-! The rotation (R26, R113). -/

/-- FDUTY permits fetch in cycle t: k of every 16 cycles, evenly spread (R26, R354). -/
def dutyPermits (k t : Nat) : Bool := t * k / 16 < (t + 1) * k / 16

/-- The places of a rotation after the last that issued. -/
def rotation (last : Nat) : List Nat := (fromTo 1 16).map (fun j => (last + j) % 16)

/-- The place chosen, and the marked ones that lose their marks: the first eligible without a YIELD mark; where all of
several are marked, the first is passed over and the second chosen (R113; log 10). -/
def choosePlace (last : Nat) (eligible marked : Nat → Bool) : Option (Nat × List Nat) :=
  let l := (rotation last).filter eligible
  match l.find? (fun k => !marked k) with
  | some k => some (k, l.takeWhile (fun j => marked j))
  | none =>
    match l with
    | [] => none
    | [k] => some (k, [k])
    | j :: k :: _ => some (k, [j, k])

/-- A context is eligible on a compute core in cycle t. -/
def Ctx.eligible (x : Ctx) (t : Nat) : Bool := x.st = .ready && (t : Int) - x.lastIssue ≥ 4

/-- The context that a core chooses in its cycle, with the marked ones that lose their marks. -/
def Core.choose (c : Core) (n : Nat) : Option (Nat × List Nat) :=
  choosePlace c.last (fun k => (c.ctx n k).eligible c.cyc) (fun k => (c.ctx n k).yielded)

/-- Clears YIELD marks. -/
def State.unmark (s : State) (l : List (Nat × Nat)) : State :=
  l.foldl (fun t x => t.modCtx x.1 x.2 (fun y => { y with yielded := false })) s

/-! A cycle of a quad (R84, R165). -/

/-- The age of what core n issues in its cycle: the cycle in which a replayed instruction first issued, else this one. -/
def State.turnAge (s : State) (n : Nat) : Nat :=
  match (s.core n).choose n with
  | some (k, _) => if (s.ctx n k).owed.isSome then (s.ctx n k).age else (s.quad (quadOf n)).cycle
  | none => (s.quad (quadOf n)).cycle

/-- The first of a list with the least age. -/
def oldest (age : Nat → Nat) : List Nat → Option Nat
  | [] => none
  | n :: rest => match oldest age rest with | some m => some (if age m < age n then m else n) | none => some n

/-- The core of a quad whose turn comes next in the quad's cycle: the older instruction first, then the lower core. -/
def State.dueCore (s : State) (q : Nat) : Option Nat := oldest s.turnAge (s.roundLeft q)

/-- The banks that core n asks for in its cycle. -/
def State.claims (s : State) (n : Nat) : List Nat :=
  let c := s.core n
  if !dutyPermits (s.quad (quadOf n)).fduty c.cyc then []
  else
    match c.choose n with
    | some (k, _) =>
      let t : State := { s with cur := ⟨n, k⟩ }
      if !t.cx.pend.isEmpty then [] else (match t.fetch with | .word w => t.requests (t.instrOf w) | _ => [])
    | none => []

/-- The banks not free to the instruction that issues: those granted in the quad's cycle; to a handler, those that the
quad's cores ask for too, until it has yielded 8 times, when it wins (R401). -/
def State.taken (s : State) : List Nat :=
  let q := quadOf s.cur.core
  if s.priv then
    if s.cx.lost ≥ 8 then [] else (s.quad q).grants ++ (s.roundLeft q).flatMap (fun n => s.claims n)
  else (s.quad q).grants

/-! Issue. -/

/-- What follows an instruction that has issued: the end of its chain under FLAGS.STEP (R339), registers kept for the
next one (R70), and the delivery of a cause that it met on its way to PARKED (R45). -/
def State.afterIssue (s : State) (i : Instr) (t : State) : State :=
  let n := s.cur.core
  let k := s.cur.ctx
  let kept := (Instr.kept i s.cx.chain).map (fun r => r.span)
  let t1 := if s.flags.getLsbD 22 && !i.isPrefix then t.stepRetired n k else t
  let t2 := t1.modCtx n k (fun x =>
    { x with owed := none, kept := if i.isPrefix then x.kept else if x.st = s.cx.st && x.wsp = s.cx.wsp then kept else [] })
  if (t2.ctx n k).st = .parked && !(t2.ctx n k).pend.isEmpty then t2.deliverPending n k else t2

/-- The banks that an instruction wins. -/
def State.won (s : State) (i : Instr) : List Nat :=
  let l := (arbitrate s.taken (s.requests i)).1
  l.take (l.length - s.taken.length)

/-- Banks of the quad's cycle are granted to the instruction that issues, those that it wins and no others; of a handler
that wins after yielding, a bank that has been granted in this cycle is its in the next (R84, R401). -/
def State.grant (s : State) (i : Instr) : State :=
  s.modQuad (quadOf s.cur.core) (fun q =>
    { q with
      grants := (s.won i).filter (fun b => !q.grants.contains b) ++ q.grants,
      booked := (s.won i).filter (fun b => q.grants.contains b) ++ q.booked })

/-- Issues an instruction at the current context: a turn lost, or the instruction. -/
def State.issueInstr (s : State) (i : Instr) : Out :=
  let s0 := s.countReplay.grant i
  let lost := (arbitrate s.taken (s.requests i)).2
  if !lost.isEmpty then .next (s0.loseTurn lost)
  else
    match exec i s0 with
    | .next t => .next (s.afterIssue i t)
    | r => r

/-- Issues what a fetch gave. -/
def State.issue (s : State) (f : WordFetch) : Out :=
  match f with
  | .word w => s.issueInstr (s.instrOf w)
  | .trap c v => .next (s.raise c v)
  | .later => .next s

/-! The clock of a core (R28, R300, R303). -/

/-- Holds and reservations that have lasted 1,024 cycles end (R39, R40). -/
def State.expire (s : State) (n : Nat) : State :=
  (s.core n).ctxs.foldl (fun t x => (t.act (.holdTimeout n x.1)).act (.landingReservationExpiry n x.1)) s

/-- One cycle of the core's clock passes. -/
def State.tickCore (s : State) (n : Nat) : State :=
  let c := s.core n
  let busy := (c.ctxs.filter (fun x => x.2.clocked)).length
  let q := quadOf n
  let ctxs : Map Ctx := c.ctxs.map (fun x =>
    (x.1, { x.2 with hold := x.2.hold.map (· + 1), resv := x.2.resv.map (fun r => { r with cycles := r.cycles + 1 }) }))
  let s1 := s.setCore n { c with cyc := c.cyc + 1, ctxs := ctxs }
  if busy = 0 then s1
  else (s1.modUsage (s.quad q).vf (fun u => { u with ctxcyc := u.ctxcyc + busy })).modQuad q (fun x => { x with active := true })

/-- The chosen context takes its turn: a pending cause, at its boundary or in place of the rest of its chain (R67, R334),
else its next word. -/
def State.takeTurn (s : State) : Out :=
  if !s.cx.pend.isEmpty then .next (s.deliverPending s.cur.core s.cur.ctx) else s.issue s.fetch

/-- One clock cycle of compute core n. -/
def State.coreCycle (s : State) (n : Nat) : Out :=
  let s0 := s.expire n
  let c := s0.core n
  if !c.runs then .next s0
  else
    let s1 := s0.tickCore n
    let slot (off : Nat) : Out := .next (s1.bump (quadOf n) (off + 0x20 * coreInQuad n) 1 8)
    if !dutyPermits (s0.quad (quadOf n)).fduty c.cyc then slot 0x190
    else
      match c.choose n with
      | none => if c.ctxs.any (fun x => x.2.st = .ready) then slot 0x188 else slot 0x180
      | some (k, passed) =>
        let s2 := (s1.modCore n (fun x => { x with last := k })).modCtx n k (fun x =>
          { x with lastIssue := (c.cyc : Int), yielded := false })
        let s3 := s2.unmark (passed.map (fun j => (n, j)))
        { s3 with cur := ⟨n, k⟩ }.takeTurn

/-- A cycle of the quad of core n goes on with the core that is due in it, or a new one begins; an engine may have taken
a bank in it. -/
def State.coreTurn (s : State) (n : Nat) (bank : Option Nat) : Out :=
  let q := quadOf n
  let s0 := if (s.roundLeft q).isEmpty then s.newCycle q else s
  match s0.dueCore q with
  | none => .next s0
  | some m => (s0.modQuad q (fun x => { x with round := m :: x.round, grants := bank.toList ++ x.grants })).coreCycle m

/-- One clock cycle of tile t's service core (R335): its rotation runs over the first 16 contexts AWAY. -/
def State.serviceTurn (s : State) (t : Nat) : Out :=
  let x := s.tile t
  let run := x.away.take 16
  if run.isEmpty then .next s
  else
    let s1 := s.modTile t (fun y => { y with cyc := y.cyc + 1 })
    let last (p : Nat × Nat) : Int := (mapGet x.issued (srcCtx p.1 p.2)).getD (-4)
    let eligible (j : Nat) : Bool := match run[j]? with | some p => (x.cyc : Int) - last p ≥ 4 | none => false
    let marked (j : Nat) : Bool := match run[j]? with | some p => (s.ctx p.1 p.2).yielded | none => false
    match choosePlace x.last eligible marked with
    | none => .next s1
    | some (j, passed) =>
      match run[j]? with
      | none => .next s1
      | some p =>
        let s2 := s1.modTile t (fun y => { y with last := j, issued := mapSet y.issued (srcCtx p.1 p.2) (x.cyc : Int) })
        let s3 := s2.unmark (p :: passed.filterMap (fun i => run[i]?))
        let r := { s3 with cur := ⟨p.1, p.2⟩ }.fetchHandler
        r.1.issue r.2

/-! What may come next when no turn is listed (log 3). -/

/-- A step of the part that is pending when b holds. -/
def pendingIf (b : Bool) (i : Instr) : List Instr := if b then [i] else []

/-- The first load of those in flight lands. -/
def firstLanding (n k : Nat) : List Lda → List Instr
  | [] => []
  | l :: _ => if l.vec then [.vldaLanding n k 0] else [.ldaLanding n k 0]

/-- The first of the operations a context has accepted is performed. -/
def firstOp (n k : Nat) : List CtxOp → List Instr
  | [] => []
  | .flush l _ _ :: _ => [.cultureFlush l]
  | .cultld _ _ _ :: _ => [.cultureCheckComplete n k]
  | .rangeset _ _ _ :: _ => [.rangesetPerformed n k]
  | .tlbinv _ _ _ _ _ _ :: _ => [.tlbinvPerformed n k]

/-- A PARK.ge whose read is still to be made. -/
def Park.unread : Park → Bool
  | .ge _ _ u => u
  | _ => false

/-- Steps of the part that context k of core n has pending. -/
def ctxMovers (n k : Nat) (x : Ctx) : List Instr :=
  List.flatten [firstLanding n k x.ldas, pendingIf (!x.stores.isEmpty) (.storePerformed n k 0),
    pendingIf (!x.nputs.isEmpty) (.nputLanding n k), firstOp n k x.ops, pendingIf x.park.unread (.parkGeReadComplete n k)]

/-- The next step of a copy. -/
def copyMover (n slot : Nat) (c : Copy) : Instr :=
  if c.added then .copySectorFault n slot else if c.regs.counter = 0 then .copyLastBytePerformed n slot else .copyCounterAdd n slot

/-- The next step of a journal entry. -/
def State.journalMover (s : State) (n j : Nat) (e : JEntry) : List Instr :=
  if e.state ≠ .pending then [] else if (s.postRefusal e).isSome then [.pstRefusal n j] else [.pstAcknowledge n j]

/-- Steps of the part that core n has pending. -/
def State.coreMovers (s : State) (n : Nat) (c : Core) : List Instr :=
  List.flatten [c.ctxs.flatMap (fun x => ctxMovers n x.1 x.2),
    c.slots.flatMap (fun x => pendingIf (x.2.state = .filling) (.cfetchFillLanded n x.1)),
    c.chans.flatMap (fun x => pendingIf (!x.2.flight.isEmpty) (.flitArrival n x.1)),
    c.copies.map (fun x => copyMover n x.1 x.2), c.fills.map (fun l => .lineFillComplete n l),
    c.journal.flatMap (fun x => s.journalMover n x.1 x.2)]

/-- Steps of the part that quad q has pending. -/
def quadMovers (q : Nat) (x : Quad) : List Instr :=
  List.flatten [pendingIf (!x.ops.isEmpty) (.matrixOperationFinish q 0), pendingIf (!x.inbox.isEmpty) (.mxcmdAcceptance q),
    x.slots.flatMap (fun f => pendingIf (!f.2.filled) (.fetchSlotFill q f.1)), pendingIf x.fused (.l1UnfusionComplete q)]

/-- Steps of the part that tile t has pending. -/
def tileMovers (t : Nat) (x : Tile) : List Instr := pendingIf (x.pinBusy ≠ 0) (.pinReleaseComplete t)

/-- The next step of a gang switch. -/
def gangMover (now p : Nat) (g : Gang) : List Instr :=
  match g.phase with
  | .requested => pendingIf (g.time ≤ now) (.gangSwitchStop p)
  | .stopped => [.gangSwitchSave p]
  | .restoring => pendingIf (g.time ≤ now) (.resume p)
  | _ => []

/-- Steps of the part that partition p has pending. -/
def State.partMovers (s : State) (p : Nat) (x : PartState) : List Instr :=
  List.flatten [pendingIf (s.nextLaunch p).isSome (.dispatch p), match x.gang with | none => [] | some g => gangMover s.hub.now p g]

/-- Steps of the part that a hoop has pending. -/
def hoopMovers (now h : Nat) (x : Hoop) : List Instr :=
  match x.state with
  | .placed => [.segmentZeroLoad h, .hoopStart h]
  | .running => pendingIf (x.sliceEnd ≤ now) (.sliceExpiry h)
  | .ending => [.doneAdd h]
  | .switched => []

/-- The next step of a line that waits for answers. -/
def State.lineMover (s : State) (line : Nat) (e : DirEntry) : List Instr :=
  match e.wait with
  | p :: _ => [.homeAgentProbe line p]
  | [] => pendingIf (s.transient e.slot e.state) (if e.dataDue then .cultureData line else .cultureAck line)

/-- The next continuation to register. -/
def suspMover (l : List Susp) : List Instr :=
  match findPos (fun u => u.registered.isNone) l with
  | some i => [.suspRegistration i]
  | none => []

/-- Steps of the part that the hub has pending. -/
def State.hubMovers (s : State) : List Instr :=
  let h := s.hub
  List.flatten [pendingIf (!h.commands.isEmpty) (.mxcmdArrival 0), pendingIf (!h.returns.isEmpty) (.mxcmdRefusalReturn 0),
    pendingIf (!h.misses.isEmpty) (.scopeMissMessage 0), suspMover h.susps,
    h.walks.map (fun w => .pageWalkComplete w.core (BitVec.ofNat 64 (4096 * w.page))),
    h.queues.flatMap (fun x => pendingIf (!x.2.held.isEmpty) (.heldLaunchEnqueue (x.1 / 8) (x.1 % 8))),
    h.parts.flatMap (fun p => s.partMovers p.1 p.2), h.hoops.flatMap (fun x => hoopMovers h.now x.1 x.2),
    pendingIf (!h.reports.isEmpty) .usageReportComplete, h.dir.flatMap (fun e => s.lineMover e.1 e.2)]

/-- Who may move next: cores whose clock runs, service cores with work, and the part's pending steps. -/
def State.movers (s : State) : List Mover :=
  let own : List Instr := List.flatten [s.cores.flatMap (fun c => s.coreMovers c.1 c.2),
    s.quads.flatMap (fun q => quadMovers q.1 q.2), s.tiles.flatMap (fun t => tileMovers t.1 t.2),
    s.hubMovers]
  List.flatten [(s.cores.filter (fun c => c.2.runs)).map (fun c => .core c.1),
    (s.tiles.filter (fun t => !t.2.away.isEmpty)).map (fun t => .service t.1), own.map (fun i => .event i)]

/-- Without a list of turns, the movers in turn by the nanosecond. -/
def State.autopilot (s : State) : Option Mover :=
  let l := s.movers
  l[s.hub.now % max l.length 1]?

/-! Turns. -/

/-- A step of the part that a list of turns may name: no instruction, and not the trap of a word, which only its issue
brings about. -/
def mayOccur (i : Instr) : Bool :=
  i.isEvent && i.unitsOk && (match i with | .illegalInstruction _ _ => false | _ => true)

/-- One turn. -/
def State.turn (s : State) (m : Mover) (bank : Option Nat) : Out :=
  match m with
  | .core n => if n < 1536 then s.coreTurn n bank else .next s
  | .service t => if t < 48 then s.serviceTurn t else .next s
  | .event i => if mayOccur i then exec i s else .next s

/-- The rings that hold records are polled (R324). -/
def State.pollRings (s : State) : State :=
  let rings := (s.hub.vfs.flatMap (fun v => [RingRef.fault v.1, RingRef.host v.1])) ++ s.hub.parts.map (fun p => RingRef.event p.1)
  (rings.filter (fun r => !(s.ringHeld r).isEmpty)).foldl (fun t r => t.drainRing r (t.ringHeld r).length) s

/-- The copies in flight whose promise TSTAMP has passed (R293). -/
def State.testPromises (s : State) : State :=
  s.cores.foldl (fun t c => (c.2.copies.filter (fun x => !x.2.added)).foldl (fun u x => u.promiseTest c.1 x.1) t) s

/-- What a moment brings about by itself: rings polled and deficits charged at each microsecond (R52, R324), promises
missed, rails moved, leases that are over. What is due at the moment of a tick of the budget comes after the tick has
metered, and leases that are over then end in it (R356, R359). -/
def State.onTime (s : State) : State :=
  let t := if s.hub.now % 1000 = 0 then s.pollRings else s
  let u := (if t.chargeDue then t.chargeHoops else t).testPromises
  if u.tickDue then u.moveRails (u.hub.now - 1) else (u.moveRails u.hub.now).expireLeases

/-- The moments at which time brings something about: the next microsecond, the ends of leases, steps and holds of rails,
promises passed. -/
def State.moments (s : State) : List Nat :=
  let skew (t : Nat) : Nat := (Config.tileSkew t).val
  List.flatten [[(s.hub.now / 1000 + 1) * 1000],
    s.leasedQuads.map (fun q => (s.quad q).leaseEnd.toNat - skew (tileOfQuad q)),
    (s.tiles.filter (fun t => t.2.phase ≠ .steady)).map (fun t => if t.2.phase = .hold then t.2.holdEnd else t.2.stepAt + 2000),
    s.cores.flatMap (fun c => (c.2.copies.filter (fun x => !x.2.added && !x.2.late)).map (fun x =>
      x.2.promise.toNat + 1 - skew (tileOf c.1)))]

/-- The next such moment before a time, else that time. -/
def State.nextMoment (s : State) (target : Nat) : Nat :=
  (s.moments.filter (fun d => s.hub.now < d && d < target)).foldl min target

/-- Time goes on to a time, moment by moment, each of at least one of `fuel` nanoseconds. -/
def State.passTo (s : State) (target : Nat) : Nat → State
  | 0 => s
  | fuel + 1 =>
    if target ≤ s.hub.now then s
    else ((s.modHub (fun h => { h with now := s.nextMoment target })).onTime).passTo target fuel

/-- Nanoseconds pass, up to the next tick of the budget (R350). -/
def State.pass (s : State) (dt : Nat) : State :=
  let target := min (s.hub.now + dt) ((s.hub.now / 10000 + 1) * 10000)
  s.passTo target (target - s.hub.now)

/-! What others have written (R70, R130, R170). -/

/-- Bytes kept as they were before the first of several writes. -/
def keepOld (m : Map Byte) (l : List (Nat × Byte)) : Map Byte :=
  l.foldl (fun m b => if (mapGet m b.1).isNone then mapSet m b.1 b.2 else m) m

/-- A context whose accesses may be under way. -/
def Ctx.atWork (x : Ctx) : Bool := x.st = .ready || x.st = .held || x.st = .away

/-- What the writes of a step do to context k of core n: of the bytes that they have changed, its accesses that were under
way before the step may still find the old ones (R130), but for bytes that it takes from its own stores; registers kept by
HINT.REUSE that they touch are dropped (R70). `before` is the machine before the step, `who` the context that acts. -/
def Ctx.noteOld (x : Ctx) (before : State) (who : Option (Nat × Nat)) (runs : List (Nat × Nat))
    (bytes : List (Nat × Byte)) (n k ws : Nat) : Ctx :=
  let b := before.ctx n k
  let mine (a : Nat) : Bool := (before.ownStore n k a).isSome
  let within (l : List (Nat × Nat)) (a : Nat) : Bool := l.any (fun r => r.1 ≤ a && a < r.1 + r.2)
  { x with
    past := if who != some (n, k) && b.atWork && x.atWork then keepOld x.past (bytes.filter (fun y => !mine y.1)) else x.past,
    ldas := x.ldas.map (fun l =>
      if l.vec && l.elems.any (fun e => e.scale.isSome) && b.ldas.any (fun y => decide ({ y with old := l.old } = l)) then
        { l with old := keepOld l.old (bytes.filter (fun y => within l.reads y.1 && !mine y.1)) }
      else l),
    kept := x.kept.filter (fun r => !overlap [(ws + r.1, r.2)] runs) }

/-- The end of a step: what its writes, noted in `wrote`, do to accesses, matrix operations and kept registers. -/
def State.noteOld (before : State) (who : Option (Nat × Nat)) (t : State) : State :=
  let runs := t.wrote
  if runs.isEmpty then t
  else
    let bytes := (runs.flatMap (fun r => fromTo r.1 r.2)).dedup.filterMap (fun a =>
      if before.look a = t.look a then none else some (a, before.look a))
    { t with
      wrote := [],
      cores := t.cores.map (fun c => (c.1, { c.2 with
        ctxs := c.2.ctxs.map (fun x => (x.1, x.2.noteOld before who runs bytes c.1 x.1 (t.wsOf c.1 x.1))) })),
      quads := t.quads.map (fun q => (q.1, { q.2 with
        ops := q.2.ops.map (fun o =>
          if (before.quad q.1).ops.any (fun y => decide ({ y with source := o.source } = o)) then o.keep bytes else o) })) }

/-- The context that acts in a turn. -/
def State.actor (s : State) (m : Mover) : Option (Nat × Nat) :=
  match m with
  | .core _ => some (s.cur.core, s.cur.ctx)
  | .service _ => some (s.cur.core, s.cur.ctx)
  | .event (.ldaLanding n k _) => some (n, k)
  | .event (.vldaLanding n k _) => some (n, k)
  | .event _ => none

/-- After a turn nanoseconds pass, and what its writes bring about is noted. -/
def State.closeTurn (s : State) (m : Option Mover) (dt : Nat) (o : Out) : Out :=
  match o with
  | .next t => .next (s.noteOld (m.bind t.actor) (t.pass dt))
  | r => r

/-- A tick that is due comes before any turn but its own (R350; log 15). -/
def State.ticked (s : State) (m : Mover) : State :=
  match m with
  | .event (.budgetTick _ _ _) => s
  | _ => if s.tickDue then s.freeTick else s

/-- One step of the machine: the next turn listed, else the one that the part takes by itself; nothing while the
controller has refused the firmware (R382). -/
def State.stepTurn (s0 : State) : Out :=
  if !s0.hub.started then .fault .notStarted
  else
    let s : State := { s0 with wrote := [] }
    match s.schedule with
    | u :: rest => s.closeTurn (some u.mover) u.dt (({ s with schedule := rest }.ticked u.mover).turn u.mover u.bank)
    | [] =>
      match s.autopilot with
      | some m => s.closeTurn (some m) 1 ((s.ticked m).turn m none)
      | none => s.closeTurn none 1 (.next (if s.tickDue then s.freeTick else s))

/-- The machine with an instruction word where its next step fetches: context 0 of core 0 READY at the first word of
its landed slot 0, first in rotation, every operand read won, and core 0 due in its quad's cycle (log 8). -/
def State.placeWord (s : State) (w : W32) : State :=
  let s1 := s.modCore 0 (fun c =>
    { c with last := 15, slots := mapSet c.slots 0 { c.slot 0 with state := .landed, words := mapSet (c.slot 0).words 0 w, poison := [] } })
  let s2 := s1.modCtx 0 0 (fun x =>
    { x with st := .ready, pc := 0, chain := [], pend := [], lost := 0, owed := some [], kept := [], yielded := false,
             past := [], lastIssue := -4, hold := none, resv := none })
  let others := ((quadCores 0).filter (fun n => n ≠ 0 && (s2.core n).runs))
  let s3 := s2.modQuad 0 (fun q => { q with fduty := 16, round := others, grants := [], tied := false, ties := 0 })
  { s3.modHub (fun h => { h with started := true }) with schedule := [⟨.core 0, 1, none⟩] }

end Sys2Proof.Machine
end

