-- ==== Sys2Proof/Safety.lean ====
section
/-!
DEFINITION. What a safe run is, and the terms in which statements about the machine are made: when an instruction takes
effect, and what it leaves as it was.
-/

namespace Sys2Proof

/-- A state from which k steps go on, each of them. -/
def SafeFor : Nat → Machine.State → Prop
  | 0, _ => True
  | k + 1, s => ∃ t, Machine.step s = .next t ∧ SafeFor k t

/-- Every state that steps reach from s goes on. -/
def Safe (s : Machine.State) : Prop := ∀ k, SafeFor k s

end Sys2Proof

namespace Sys2Proof.Machine

/-- An instruction takes effect at the issuing context: it accepts the prefixes before it, its guard is not 0b1111 and
passes, and neither its guard register nor a source is poisoned (R58, R59, R66, R204). -/
structure Takes (i : Instr) (g : BitVec 4) (u : GuardUse) (s : State) : Prop where
  accepts : i.accepts s.cx.chain = true
  guarded : g ≠ 15
  clean   : g = 7 ∨ s.regPoison (guardReg g) = none
  passes  : u.passes s g = true
  sources : s.readPoison i = none

/-- The bytes of S[n] in the issuing context's workspace; none for s0 (R78, R80). -/
def inS (s : State) (n : BitVec 6) (a : Nat) : Prop := n ≠ 0 ∧ s.ws + 8 * n.toNat ≤ a ∧ a < s.ws + 8 * n.toNat + 8
/-- The bytes of V[n]. -/
def inV (s : State) (n : BitVec 5) (a : Nat) : Prop :=
  s.ws + 0x200 + 0x80 * n.toNat ≤ a ∧ a < s.ws + 0x200 + 0x80 * n.toNat + 0x80
/-- The bytes of P[n]; none for p7. -/
def inP (s : State) (n : BitVec 3) (a : Nat) : Prop :=
  n ≠ 7 ∧ s.ws + 0x1200 + 4 * n.toNat ≤ a ∧ a < s.ws + 0x1200 + 4 * n.toNat + 4
/-- The bytes of a workspace item. -/
def inItem (s : State) (off n a : Nat) : Prop := s.ws + off ≤ a ∧ a < s.ws + off + n

/-- The machine t is the machine s but for the bytes of memory that B names and, of the issuing context, what every
instruction moves: its PC, the prefixes issued, its lost turns, its retry sequence, its landing reservation, and what others
have written during its last turn (R130). -/
structure Framed (s t : State) (B : Nat → Prop) : Prop where
  bytes    : ∀ a, ¬ B a → t.byte a = s.byte a
  poison   : ∀ a, t.poisoned a = true → s.poisoned a = true
  quads    : t.quads = s.quads
  tiles    : t.tiles = s.tiles
  hub      : t.hub = s.hub
  cur      : t.cur = s.cur
  schedule : t.schedule = s.schedule
  draws    : t.draws = s.draws
  contexts : ∀ n k, ¬(n = s.cur.core ∧ k = s.cur.ctx) → t.ctx n k = s.ctx n k
  cores    : ∀ n, { t.core n with ctxs := [] } = { s.core n with ctxs := [] }
  own      : t.cx = { s.cx with pc := t.cx.pc, chain := [], lost := 0, retry := t.cx.retry, resv := t.cx.resv,
                                resvLost := t.cx.resvLost, past := [] }

/-- The instruction completes with nothing but the write of v to S[d] (none when d is 0), and control passes to the
next word. -/
def WritesS (i : Instr) (d : BitVec 6) (v : W64) (s : State) : Prop :=
  ∃ t, exec i s = .next t ∧ (d ≠ 0 → t.getS d = v) ∧ t.getS 0 = 0 ∧ t.cx.pc = s.nextPc ∧ Framed s t (inS s d)

/-- The instruction completes with nothing but the write of f j to lane j of V[d] for each lane of the mask. -/
def WritesV (i : Instr) (d : BitVec 5) (mask : W32) (f : Nat → W32) (s : State) : Prop :=
  ∃ t, exec i s = .next t ∧ (∀ j < 32, t.getV d j = if mask.getLsbD j then f j else s.getV d j) ∧
    t.cx.pc = s.nextPc ∧ Framed s t (inV s d)

/-- The instruction completes with nothing but the write of lane bit f j to P[d] for each lane of the mask (none when
d is 7). -/
def WritesP (i : Instr) (d : BitVec 3) (mask : W32) (f : Nat → Bool) (s : State) : Prop :=
  ∃ t, exec i s = .next t ∧ (d ≠ 7 → ∀ j < 32, (t.getP d).getLsbD j = if mask.getLsbD j then f j else (s.getP d).getLsbD j) ∧
    t.getP 7 = 0xFFFFFFFF ∧ t.cx.pc = s.nextPc ∧ Framed s t (inP s d)

/-- As WritesS, with flags gathered into FLAGS.FX, which are sticky (R135). -/
def WritesSF (i : Instr) (d : BitVec 6) (v : W64) (fx : Nat) (s : State) : Prop :=
  ∃ t, exec i s = .next t ∧ (d ≠ 0 → t.getS d = v) ∧ t.flags = s.flags ||| BitVec.ofNat 64 (fx % 32) ∧
    t.cx.pc = s.nextPc ∧ Framed s t (fun a => inS s d a ∨ inItem s 0x1240 8 a)

/-- As WritesV, with flags gathered into FLAGS.FX. -/
def WritesVF (i : Instr) (d : BitVec 5) (mask : W32) (f : Nat → W32) (fx : Nat) (s : State) : Prop :=
  ∃ t, exec i s = .next t ∧ (∀ j < 32, t.getV d j = if mask.getLsbD j then f j else s.getV d j) ∧
    t.flags = s.flags ||| BitVec.ofNat 64 (fx % 32) ∧ t.cx.pc = s.nextPc ∧
    Framed s t (fun a => inV s d a ∨ inItem s 0x1240 8 a)

/-- The machine u is the machine s with other translations cached, walks in flight having ended (R187, R202). -/
structure Cached (s u : State) : Prop where
  mem      : u.mem = s.mem
  poison   : u.poison = s.poison
  quads    : u.quads = s.quads
  hub      : { u.hub with walkCache := [], walks := [] } = { s.hub with walkCache := [], walks := [] }
  cur      : u.cur = s.cur
  schedule : u.schedule = s.schedule
  choices  : u.choices = s.choices
  draws    : u.draws = s.draws
  cores    : ∀ n, { u.core n with tlb := [] } = { s.core n with tlb := [] }
  tiles    : ∀ t, { u.tile t with tlb := [] } = { s.tile t with tlb := [] }

/-- An access of the issuing context goes through: every piece is translated, with no fault and no page in transit, u
being the machine with those translations cached, and the device reports no outcome of its own (R35, R203). -/
structure Reaches (i : Instr) (a : Acc) (pieces : List (Nat × Nat)) (s u : State) (ps : List Part) : Prop where
  found   : s.xlate s.me a pieces = (u, ⟨ps, none, false⟩)
  willing : s.discretion i = 0

/-- The homes of some runs serve a request of the issuing context: none answers with a retry or defers it (R40, R398). -/
def Served (s : State) (runs : List (Nat × Nat)) (ev : Nat) : Prop := s.askBusy (tileOf s.cur.core) runs ev = false

/-- No access of the issuing context is in flight: every load has landed, every store, posted store and flush is
performed; and its tile holds private state for no line, so that a release raises no event (R263). -/
structure Quiet (s : State) : Prop where
  ldas   : s.cx.ldas = []
  stores : s.cx.stores = []
  posts  : ∀ e ∈ (s.core s.cur.core).journal, e.2.state = .pending → e.2.owner ≠ s.cur.ctx
  ops    : s.cx.ops = []
  lines  : s.relLines (tileOf s.cur.core) = []

/-- The instruction completes with the effect that makes e of the machine, and control passes to pc. A would-block
instruction also writes P6 to all-ones (R33). Nothing else is done. -/
def Completes (i : Instr) (s e : State) (pc : PCVal) : Prop :=
  ∃ t, exec i s = .next t ∧ t.cx.pc = pc ∧ (i.wouldBlock = true → t.getP 6 = 0xFFFFFFFF) ∧
    t.choices = (if i.wouldBlock then e.choices.tail else e.choices) ∧
    Framed e t (fun a => i.wouldBlock = true ∧ inP e 6 a)

/-- A would-block instruction completes with the write of v to S[d] and nothing else, u being the machine with the
translations it needed. -/
def Returns (i : Instr) (d : BitVec 6) (v : W64) (s u : State) : Prop :=
  ∃ t, exec i s = .next t ∧ (d ≠ 0 → t.getS d = v) ∧ t.getP 6 = 0xFFFFFFFF ∧ t.cx.pc = s.nextPc ∧
    Framed u t (fun a => inS u d a ∨ inP u 6 a)

/-- The issuing context has been delivered an exact trap (R333): it is AWAY, at the handler's first word, last in its
tile's service order; the trap registers and FLAGS hold what the trap saved, and nothing else of memory has changed. -/
structure Entered (s t : State) (cause : BitVec 6) (tval : W64) (tpc : PCVal) : Prop where
  st     : t.cx.st = .away
  pc     : t.cx.pc = BitVec.ofNat 14 ((s.vf s.myVf).record.hentry.toNat / 4 % 1024)
  chain  : t.cx.chain = []
  tpc    : t.tpc = tpc.toNat
  twsp   : t.twsp = s.cx.wsp.toNat
  tval   : t.tval = tval.toNat
  flags  : t.flags = (s.flags &&& ~~~(0xBFA00000 : W64)) ||| (cause.zeroExtend 64 <<< 24 : W64) ||| 0x800000
  away   : (t.tile (tileOf s.cur.core)).away = (s.tile (tileOf s.cur.core)).away ++ [(s.cur.core, s.cur.ctx)]
  bytes  : ∀ a, ¬ inItem s 0x1240 8 a → ¬ inItem s 0x1270 16 a → t.byte a = s.byte a
  others : ∀ n k, ¬(n = s.cur.core ∧ k = s.cur.ctx) → t.ctx n k = s.ctx n k
  hub    : t.hub = s.hub
  quads  : t.quads = s.quads

end Sys2Proof.Machine
end

