-- ==== Sys2Proof/Certificates/Slice0/Obligations.lean ====
section
/-!
DEFINITION. The statements about the machine, from the numbered rules of the manual.
-/

open Sys2Proof Sys2Proof.Machine

/-! Integer results (chapter 6). -/

/-- The exact result of an ADD, SUB, MUL or ADDI: clamped to the signed range under MOD.SAT, else modulo 2^64 (R93). -/
def sumOf (sat : Bool) (x : Int) : W64 :=
  if sat then (if x < -(2 ^ 63) then 0x8000000000000000 else if 2 ^ 63 ≤ x then 0x7FFFFFFFFFFFFFFF else BitVec.ofInt 64 x)
  else BitVec.ofInt 64 x

/-- R95, R93, R96: each instruction of major 0x04, when it takes effect, writes S[d] with the result that its row gives, and
nothing else. Division and remainder never trap; by 0 they give all-ones and S[a], and -2^63 by -1 gives -2^63 and 0; else
they round toward zero, and a remainder is what the quotient leaves. -/
def Obligations.IntegerArithmeticResults : Prop :=
  ∀ (g : BitVec 4) (d a b : BitVec 6) (s : State),
    let x := s.getS a
    let y := s.getS b
    let n := (s.getS b).toNat % 64
    ∀ r ∈ ([(.add g d a b, if s.sat then sumOf true (x.toInt + y.toInt) else x + y),
        (.sub g d a b, if s.sat then sumOf true (x.toInt - y.toInt) else x - y),
        (.mul g d a b, if s.sat then sumOf true (x.toInt * y.toInt) else x * y),
        (.mulh g d a b, BitVec.ofInt 64 (x.toInt * y.toInt / 2 ^ 64)),
        (.mulhu g d a b, BitVec.ofNat 64 (x.toNat * y.toNat / 2 ^ 64)),
        (.and g d a b, x &&& y), (.or g d a b, x ||| y), (.xor g d a b, x ^^^ y),
        (.shl g d a b, x <<< n), (.shr g d a b, x >>> n), (.sar g d a b, x.sshiftRight n),
        (.rot g d a b, (x <<< n) ||| (x >>> (64 - n))),
        (.div g d a b, if y = 0 then 0xFFFFFFFFFFFFFFFF else if x = 0x8000000000000000 ∧ y = 0xFFFFFFFFFFFFFFFF then
          0x8000000000000000 else BitVec.ofInt 64 (x.toInt.tdiv y.toInt)),
        (.divu g d a b, if y = 0 then 0xFFFFFFFFFFFFFFFF else BitVec.ofNat 64 (x.toNat / y.toNat)),
        (.rem g d a b, if y = 0 then x else if x = 0x8000000000000000 ∧ y = 0xFFFFFFFFFFFFFFFF then 0
          else BitVec.ofInt 64 (x.toInt - y.toInt * x.toInt.tdiv y.toInt)),
        (.remu g d a b, if y = 0 then x else BitVec.ofNat 64 (x.toNat - y.toNat * (x.toNat / y.toNat)))] : List (Instr × W64)),
      Takes r.1 g .scalar s → WritesS r.1 d r.2 s

/-- R97, R98: minima and maxima, MOV, and the bit-field instructions, by the field's position and effective length; CLZ,
CTZ and POPC, each said by what the bits of S[a] are. R99, R100: LEA computes S[a] + S[b] x scale modulo 2^64, reads no
memory, translates nothing, and never traps on its result; SEL takes S[a] where bit 0 of P[q], inverted when n is 1, is 1,
else S[b]. -/
def Obligations.SelectionFieldAndCountResults : Prop :=
  (∀ (g : BitVec 4) (d a b : BitVec 6) (s : State),
    let x := s.getS a
    let y := s.getS b
    let pos := (s.getS b).toNat % 64
    let code := (s.getS b).toNat / 256 % 64
    let len := min (if code = 0 then 64 else code) (64 - pos)
    ∀ r ∈ ([(.min g d a b, if x.toInt ≤ y.toInt then x else y), (.max g d a b, if y.toInt ≤ x.toInt then x else y),
        (.minu g d a b, if x.toNat ≤ y.toNat then x else y), (.maxu g d a b, if y.toNat ≤ x.toNat then x else y),
        (.mov g d a, x), (.ext g d a b, (x >>> pos) &&& BitVec.ofNat 64 (2 ^ len - 1)),
        (.extS g d a b, (x <<< (64 - len - pos)).sshiftRight (64 - len)),
        (.ins g d a b, (s.getS d &&& ~~~(BitVec.ofNat 64 (2 ^ len - 1) <<< pos)) |||
          ((x <<< pos) &&& (BitVec.ofNat 64 (2 ^ len - 1) <<< pos)))] : List (Instr × W64)),
      Takes r.1 g .scalar s → WritesS r.1 d r.2 s) ∧
  (∀ (g : BitVec 4) (d a : BitVec 6) (s : State),
    (Takes (.clz g d a) g .scalar s → ∃ n ≤ 64, (∀ j < n, (s.getS a).getLsbD (63 - j) = false) ∧
      (n < 64 → (s.getS a).getLsbD (63 - n) = true) ∧ WritesS (.clz g d a) d (BitVec.ofNat 64 n) s) ∧
    (Takes (.ctz g d a) g .scalar s → ∃ n ≤ 64, (∀ j < n, (s.getS a).getLsbD j = false) ∧
      (n < 64 → (s.getS a).getLsbD n = true) ∧ WritesS (.ctz g d a) d (BitVec.ofNat 64 n) s) ∧
    (Takes (.popc g d a) g .scalar s →
      WritesS (.popc g d a) d (BitVec.ofNat 64 ((List.range 64).countP (fun j => (s.getS a).getLsbD j))) s)) ∧
  (∀ (g : BitVec 4) (d a b : BitVec 6) (sc : BitVec 2) (n : BitVec 1) (q : BitVec 3) (s : State),
    (Takes (.lea g d a b sc) g .scalar s →
      WritesS (.lea g d a b sc) d (s.getS a + s.getS b * BitVec.ofNat 64 (2 ^ sc.toNat)) s) ∧
    (Takes (.sel g d a b n q) g .scalar s → WritesS (.sel g d a b n q) d
      (if (if n = 1 then !(s.getP q).getLsbD 0 else (s.getP q).getLsbD 0) then s.getS a else s.getS b) s))

/-- The immediate of an instruction: its field sign-extended, or with the 26 bits of each IMM before it on top (R68). -/
def immediate (s : State) {w : Nat} (o : BitVec w) : W64 :=
  match chainImms s.cx.chain with
  | [] => o.signExtend 64
  | [p] => (p ++ o).signExtend 64
  | p :: q :: _ => (p ++ q ++ o).signExtend 64

/-- R101, R102, R68: the immediate forms. Without an IMM the immediate is the sign-extended field; each IMM puts 26 bits
above it. -/
def Obligations.ImmediateResults : Prop :=
  ∀ (g : BitVec 4) (d a : BitVec 6) (i : BitVec 10) (n : BitVec 6) (s : State),
    let x := s.getS a
    let imm := immediate s i
    ∀ r ∈ ([(.addi g d a i, if s.sat then sumOf true (x.toInt + imm.toInt) else x + imm), (.movi g d i, imm),
        (.andi g d a i, x &&& imm), (.ori g d a i, x ||| imm), (.xori g d a i, x ^^^ imm),
        (.shli g d a n, x <<< n.toNat), (.shri g d a n, x >>> n.toNat), (.sari g d a n, x.sshiftRight n.toNat)] :
          List (Instr × W64)),
      Takes r.1 g .scalar s → WritesS r.1 d r.2 s

/-- An integer condition (R74). -/
def condition {w : Nat} (cc : Nat) (a b : BitVec w) : Prop :=
  match cc with
  | 0 => a = b
  | 1 => a ≠ b
  | 2 => a.toInt < b.toInt
  | 3 => a.toInt ≤ b.toInt
  | 4 => b.toInt < a.toInt
  | 5 => b.toInt ≤ a.toInt
  | 6 => a.toNat < b.toNat
  | 7 => a.toNat ≤ b.toNat
  | 8 => b.toNat < a.toNat
  | 9 => b.toNat ≤ a.toNat
  | _ => a &&& b ≠ 0

/-- R103, R104: a compare writes both predicates whatever its guard (but for g = 0b1111, log 11): P[p] tells that the
condition holds and G[0] is 1, P[e] that it fails and G[0] is 1; where both name one predicate it keeps the second. R105:
the predicate instructions combine bit by bit, in the guarded lanes, and the others keep their bits. -/
def Obligations.CompareAndPredicateResults : Prop :=
  (∀ (g : BitVec 4) (p e : BitVec 3) (a b : BitVec 6) (i : BitVec 6) (c : BitVec 4) (s : State), c.toNat ≤ 10 →
    let imm := immediate s i
    ∀ r ∈ ([(.cmp g p e a b c, s.getS b), (.cmpi g p e a i c, imm)] : List (Instr × W64)), Takes r.1 g .own s →
      ∃ t, exec r.1 s = .next t ∧ t.cx.pc = s.nextPc ∧ Framed s t (fun x => inP s p x ∨ inP s e x) ∧
        (p ≠ 7 → p ≠ e → (condition c.toNat (s.getS a) r.2 ∧ s.holds g = true → t.getP p = 0xFFFFFFFF) ∧
          (¬(condition c.toNat (s.getS a) r.2 ∧ s.holds g = true) → t.getP p = 0)) ∧
        (e ≠ 7 → (¬condition c.toNat (s.getS a) r.2 ∧ s.holds g = true → t.getP e = 0xFFFFFFFF) ∧
          (¬(¬condition c.toNat (s.getS a) r.2 ∧ s.holds g = true) → t.getP e = 0))) ∧
  (∀ (g : BitVec 4) (d a b : BitVec 3) (s : State),
    let x (j : Nat) : Bool := (s.getP a).getLsbD j
    let y (j : Nat) : Bool := (s.getP b).getLsbD j
    ∀ r ∈ ([(.pand g d a b, fun j => x j && y j), (.por g d a b, fun j => x j || y j),
        (.pxor g d a b, fun j => x j != y j), (.pnot g d a, fun j => !x j)] : List (Instr × (Nat → Bool))),
      Takes r.1 g .lanes s → WritesP r.1 d (s.guard g) r.2 s)


/-! Prefixes and guards (chapter 4). -/

/-- How an instruction uses its guard: by lanes in the vector instructions, by itself in NOP, VSEL, the reductions and the
scalar compares, by G[0] in every other (R59, R103, R145, R148). -/
def useOf : Instr → GuardUse
  | .vadd _ _ _ _ | .vsub _ _ _ _ | .vmul _ _ _ _ | .vmad _ _ _ _ | .vand _ _ _ _ | .vor _ _ _ _ | .vxor _ _ _ _
  | .vshl _ _ _ _ | .vshr _ _ _ _ | .vsar _ _ _ _ | .vmin _ _ _ _ _ | .vmax _ _ _ _ _ | .vabs _ _ _
  | .vshuf _ _ _ _ | .vrot _ _ _ _ | .vcmp _ _ _ _ _ | .vbcast _ _ _ | .vlane _ _ | .vfadd _ _ _ _
  | .vfsub _ _ _ _ | .vfmul _ _ _ _ | .vfma _ _ _ _ | .vfms _ _ _ _ | .vfnma _ _ _ _ | .vfmin _ _ _ _
  | .vfmax _ _ _ _ | .vfabs _ _ _ | .vfneg _ _ _ | .vfrcp _ _ _ | .vfrsq _ _ _ | .vfsqrt _ _ _ | .vfexp2 _ _ _
  | .vflog2 _ _ _ | .vfclass _ _ _ | .vfcmp _ _ _ _ _ | .vcvtF2x _ _ _ _ | .vcvtX2f _ _ _ _ | .vcvtF2i _ _ _
  | .vcvtF2u _ _ _ | .vcvtI2f _ _ _ | .vcvtU2f _ _ _ | .vpack _ _ _ _ _ | .vunpk _ _ _ _ _ | .vfrnd _ _ _
  | .vld _ _ _ _ | .vst _ _ _ _ | .vlda _ _ _ _ _ | .vlds _ _ _ _ | .vsts _ _ _ _ | .vldx _ _ _ _
  | .vstx _ _ _ _ | .pand _ _ _ _ | .por _ _ _ _ | .pxor _ _ _ _ | .pnot _ _ _ => .lanes
  | .nop | .vsel _ _ _ _ | .vredAdd _ _ _ | .vredAnd _ _ _ | .vredOr _ _ _ | .vredXor _ _ _ | .vredMin _ _ _ _
  | .vredMax _ _ _ _ | .vfredAdd _ _ _ | .vfredMin _ _ _ | .vfredMax _ _ _ | .cmp _ _ _ _ _ _ | .cmpi _ _ _ _ _ _
  | .fcmp _ _ _ _ _ _ => .own
  | _ => .scalar

/-- The instruction takes its issue slot and nothing else: control passes to the next word. -/
def Idles (i : Instr) (s : State) : Prop :=
  ∃ t, exec i s = .next t ∧ t.cx.pc = s.nextPc ∧ t.choices = s.choices ∧ Framed s t (fun _ => False)

/-- R65, R66: a prefix that fits the chain joins it and does nothing else; one that does not is the trap of an illegal
word. A chain holds two prefixes at most, of two kinds unless both are IMMs. R59, R60: an instruction whose guard does not
pass, or is 0b1111, passes control to the next word and does nothing else (that 0b1111 stands so for the instructions that
use their guard themselves is log 11); so does NOP, after any prefix it accepts. -/
def Obligations.PrefixesAndFalseGuards : Prop :=
  (∀ (p o : BitVec 26) (u : BitVec 3) (l : BitVec 2) (k : BitVec 1) (m : BitVec 3) (e : BitVec 1) (c : BitVec 2) (s : State),
    ∀ i ∈ ([.imm p, .onnr o, .hint u l k, .mod m e c] : List Instr),
      (s.cx.chain.length < 2 ∧ (∀ x ∈ s.cx.chain, x.sameKind i = false) →
        exec i s = .next (s.modCx (fun x => { x with chain := x.chain ++ [i], lost := 0 }))) ∧
      (¬(s.cx.chain.length < 2 ∧ ∀ x ∈ s.cx.chain, x.sameKind i = false) →
        exec i s = .next (s.raise 0x01 ((encode i).zeroExtend 64)))) ∧
  (∀ (i : Instr) (s : State), i.isEvent = false → i.isPrefix = false → i.accepts s.cx.chain = true →
    (i.guardField = 15 ∨ ((i.guardField = 7 ∨ s.regPoison (guardReg i.guardField) = none) ∧
      (useOf i).passes s i.guardField = false)) →
    Idles i s) ∧
  (∀ s : State, Instr.nop.accepts s.cx.chain = true → Completes .nop s s s.nextPc)

/-- R66, R204: the checks that come before every instruction. A target that does not accept its chain traps with 0x01 and
its word; an instruction whose guard register holds poison, or whose guard passes and a source of which does, traps with
0x3B and the address of the lowest poisoned byte. Of PREF, SPRINT and UNSPRINT the manual says that they never trap but by
their encoding (R219, R357, R358): that a PREF then does nothing is the model's inference (DEDUCED, log 50); SprintResults
says what the other two do. -/
def Obligations.ChecksComeFirst : Prop :=
  ∀ (i : Instr) (s : State), i.isEvent = false → i.isPrefix = false →
    (i.accepts s.cx.chain = false → exec i s = .next (s.raise 0x01 ((encode i).zeroExtend 64))) ∧
    (i.accepts s.cx.chain = true → i.guardField ≠ 15 →
      (∀ a, i.guardField ≠ 7 → s.regPoison (guardReg i.guardField) = some a →
        (i.mayIdle = true → Idles i s) ∧ (i.neverTraps = false → exec i s = .next (s.raise 0x3B (localVa a)))) ∧
      (∀ a, (i.guardField = 7 ∨ s.regPoison (guardReg i.guardField) = none) → (useOf i).passes s i.guardField = true →
        s.readPoison i = some a →
        (i.mayIdle = true → Idles i s) ∧ (i.neverTraps = false → exec i s = .next (s.raise 0x3B (localVa a)))))

/-! Control flow (chapter 7). -/

/-- The PC value of a register names a slot that holds code for the context (R106, R372). -/
def mayJump (s : State) (v : W64) : Prop :=
  v.toNat < 2 ^ 14 ∧ (if s.priv then v.toNat / 1024 = 0 else v.toNat / 1024 = pcSlot s.wordPc ∨ s.landed s.cur.core (v.toNat / 1024) = true)

/-- R64, R108, R110: BR, JMP and CALL go to the word at their offset from their own word, modulo 1,024 in their slot;
CALL leaves the next word's PC in s63; LOOP counts S[d] down and goes back until it is 0. R106, R111, R112: JMPR, CALLR, RET
and JSEG go to the PC in S[a]; a value over 14 bits, or another slot than 0 in a handler, traps with 0x05, a slot not LANDED
with 0x06, each with the value; a JSEG with an ONNR is then not ready with code 0x0D. -/
def Obligations.BranchAndJumpResults : Prop :=
  (∀ (g : BitVec 4) (o : BitVec 22) (d : BitVec 6) (j : BitVec 10) (s : State),
    (Takes (.br g o) g .scalar s → Completes (.br g o) s s (pcAdd s.wordPc o.toInt)) ∧
    (Takes (.jmp o) 7 .scalar s → Completes (.jmp o) s s (pcAdd s.wordPc o.toInt)) ∧
    (Takes (.call g o) g .scalar s → Completes (.call g o) s (s.setS 63 (s.nextPc.zeroExtend 64)) (pcAdd s.wordPc o.toInt)) ∧
    (Takes (.loop g d j) g .scalar s → Completes (.loop g d j) s (s.setS d (s.getS d - 1))
      (if s.getS d - 1 ≠ 0 then pcAdd s.wordPc j.toInt else s.nextPc))) ∧
  (∀ (g : BitVec 4) (a : BitVec 6) (s : State),
    let v := s.getS a
    ∀ r ∈ ([(.jmpr g a, s), (.callr g a, s.setS 63 (s.nextPc.zeroExtend 64)), (.ret g a, s), (.jseg g a, s)] :
        List (Instr × State)), Takes r.1 g .scalar s →
      (mayJump s v → Completes r.1 s r.2 (v.extractLsb' 0 14)) ∧
      (v.toNat ≥ 2 ^ 14 ∨ (s.priv = true ∧ v.toNat / 1024 ≠ 0) → exec r.1 s = .next (s.raise 0x05 v)) ∧
      (v.toNat < 2 ^ 14 → s.priv = false → ¬mayJump s v →
        if r.1 = .jseg g a ∧ s.onnr.isSome = true then exec r.1 s = .next (s.notReady r.1 0x0D [])
        else exec r.1 s = .next (s.raise 0x06 v)))

/-- R113 to R116, R315: YIELD marks its context. A PARK whose condition holds leaves it READY; one whose condition does
not takes it out of rotation, PARKED on its descriptor, with the next word as its PC; a handler stays AWAY (log 23).
PARK.watch on an entry with a wake latched takes the latch. R117: EXIT frees its context, and its hoop ends
with the last of its contexts. Of a context with nothing in flight and no cause pending, what it held is gone: it is FREE,
parked on nothing, with no trap pending. -/
def Obligations.ParkAndExitResults : Prop :=
  (∀ (g : BitVec 4) (a b : BitVec 6) (n : BitVec 6) (m : BitVec 5) (c : BitVec 2) (s : State),
      let va := s.getS a
      (Takes (.yield g) g .scalar s → Completes (.yield g) s (s.modCx (fun x => { x with yielded := true })) s.nextPc) ∧
      (Takes (.parkNbS g n) g .scalar s → Completes (.parkNbS g n) s
        (s.parkUnless (s.presence s.ws n.toNat) (.nb n.toNat)) s.nextPc) ∧
      (Takes (.parkNbV g m) g .scalar s → Completes (.parkNbV g m) s
        (s.parkUnless (s.presence s.ws (64 + m.toNat)) (.nb (64 + m.toNat))) s.nextPc) ∧
      (Takes (.recvPark g c) g .scalar s → Completes (.recvPark g c) s
        (s.parkUnless (((s.core s.cur.core).chan c.toNat).openTo s.cur.ctx) (.recv c.toNat)) s.nextPc) ∧
      (Takes (.parkWatch g a) g .scalar s →
        (s.entryOf s.cur.core s.cur.ctx va.toNat = none → Completes (.parkWatch g a) s (s.parkUnless true .none) s.nextPc) ∧
        (∀ e, s.entryOf s.cur.core s.cur.ctx va.toNat = some e →
          (e.latch = false → Completes (.parkWatch g a) s (s.parkUnless false (.watch va)) s.nextPc) ∧
          (e.latch = true → Completes (.parkWatch g a) s
            ((s.modHub (fun h => { h with waits := h.waits.map (fun x => if x = e then { x with latch := false } else x) })).parkUnless
              true .none) s.nextPc))) ∧
      (∀ u ps, Takes (.parkGe g a b) g .scalar s → va.toNat % 8 = 0 →
        s.xlate s.me accR.config [(va.toNat, 8)] = (u, ⟨ps, none, false⟩) → s.choices = [] →
        s.cx.ldas = [] → (∀ p ∈ ps, s.poisonIn s.cur.core s.cur.ctx (p.pa, 8) = none) →
        (∀ p ∈ ps, Served s [(p.pa, 8)] 0) →
        ∀ p ∈ ps, Completes (.parkGe g a b) s
          ((u.readRuns s.cur.core s.myVf 0 [(p.pa, 8, false)]).parkUnless ((s.getS b).toNat ≤ u.loadFor u.cur.core u.cur.ctx p.pa 8) (.ge va (s.getS b) false)) s.nextPc) ∧
      (Takes (.parkGe g a b) g .scalar s → va.toNat % 8 ≠ 0 → exec (.parkGe g a b) s = .next (s.raise 0x04 va))) ∧
  (∀ (g : BitVec 4) (s : State), Takes (.exit g) g .scalar s →
      Completes (.exit g) s ((s.exitCtx s.cur.core s.cur.ctx).endIfLast s.cur.core) s.nextPc ∧
      (Quiet s → s.cx.pend = [] → s.priv = false → s.cx.st = .ready → s.cx.prior ≠ .away →
        let t := s.exitCtx s.cur.core s.cur.ctx
        t.cx.st = .free ∧ t.cx.park = .none ∧ t.cx.pend = [] ∧ t.cx.chain = [] ∧ t.cx.task = none ∧ t.mem = s.mem ∧
          (∀ e ∈ t.hub.waits, e.waiter = .ctx s.cur.core s.cur.ctx → e.hoop ≠ (s.core s.cur.core).hoop) ∧
          (∀ n k, ¬(n = s.cur.core ∧ k = s.cur.ctx) → t.ctx n k = s.ctx n k)))


/-! Vector and float results (chapters 8 and 9 of the registers part). -/

/-- As sumOf, in a lane (R144). -/
def sumOf32 (sat : Bool) (x : Int) : W32 :=
  if sat then (if x < -(2 ^ 31) then 0x80000000 else if 2 ^ 31 ≤ x then 0x7FFFFFFF else BitVec.ofInt 32 x)
  else BitVec.ofInt 32 x

/-- R144 to R147, R141: the lane results of VADD to VROT, VSHUF, VBCAST and VLANE, written in the guarded lanes and nowhere
else. VSEL writes every lane, from V[a] in the guarded ones and from V[b] in the others; VCMP writes the condition's value
in the guarded lanes of P[p]. -/
def Obligations.VectorIntegerResults : Prop :=
  (∀ (g : BitVec 4) (d a b : BitVec 5) (u : BitVec 1) (c : BitVec 6) (s : State),
      let x (j : Nat) : W32 := s.getV a j
      let y (j : Nat) : W32 := s.getV b j
      let n (j : Nat) : Nat := (s.getV b j).toNat % 32
      ∀ r ∈ ([(.vadd g d a b, fun j => sumOf32 s.sat ((x j).toInt + (y j).toInt)),
          (.vsub g d a b, fun j => sumOf32 s.sat ((x j).toInt - (y j).toInt)),
          (.vmul g d a b, fun j => sumOf32 s.sat ((x j).toInt * (y j).toInt)),
          (.vmad g d a b, fun j => sumOf32 s.sat ((x j).toInt * (y j).toInt + (s.getV d j).toInt)),
          (.vand g d a b, fun j => x j &&& y j), (.vor g d a b, fun j => x j ||| y j), (.vxor g d a b, fun j => x j ^^^ y j),
          (.vshl g d a b, fun j => x j <<< n j), (.vshr g d a b, fun j => x j >>> n j),
          (.vsar g d a b, fun j => (x j).sshiftRight (n j)), (.vrot g d a b, fun j => (x j <<< n j) ||| (x j >>> (32 - n j))),
          (.vmin g d a b u, fun j =>
            if (if u = 1 then (x j).toNat ≤ (y j).toNat else (x j).toInt ≤ (y j).toInt) then x j else y j),
          (.vmax g d a b u, fun j =>
            if (if u = 1 then (y j).toNat ≤ (x j).toNat else (y j).toInt ≤ (x j).toInt) then x j else y j),
          (.vabs g d a, fun j => BitVec.ofInt 32 |(x j).toInt|), (.vshuf g d a b, fun j => s.getV a (n j)),
          (.vbcast g c d, fun _ => (s.getS c).extractLsb' 0 32), (.vlane g d, fun j => BitVec.ofNat 32 j)] :
            List (Instr × (Nat → W32))),
        Takes r.1 g .lanes s → WritesV r.1 d (s.guard g) r.2 s) ∧
  (∀ (g : BitVec 4) (d a b : BitVec 5) (p : BitVec 3) (c : BitVec 4) (s : State),
      (Takes (.vsel g d a b) g .own s →
        WritesV (.vsel g d a b) d 0xFFFFFFFF (fun j => if (s.guard g).getLsbD j then s.getV a j else s.getV b j) s) ∧
      (c.toNat ≤ 10 → Takes (.vcmp g p a b c) g .lanes s →
        ∃ f : Nat → Bool, (∀ j < 32, f j = true ↔ condition c.toNat (s.getV a j) (s.getV b j)) ∧
          WritesP (.vcmp g p a b c) p (s.guard g) f s))

/-- The values of the guarded lanes of V[v], in lane order. -/
def guarded (s : State) (g : BitVec 4) (v : BitVec 5) : List W32 :=
  ((List.range 32).filter (fun j => (s.guard g).getLsbD j)).map (fun j => s.getV v j)

/-- The mode of a rounding to FP32: ROUND.RM or MOD.RM, 5 read as nearest-even (R91, R131). -/
def modeF (s : State) : Nat := if s.rm = 5 then 1 else s.rm

/-- R150, R151, R154, R156 to R159: the float instructions and conversions write in each guarded lane, or in S[d],
zero-extended, the one rounded result of their operation (FloatArithmeticIsRoundedOnce says which), and gather its flags.
FCVT.f2i and FCVT.f2u write 64-bit integers; the scalar forms take bits [31:0] of their sources. -/
def Obligations.FloatResults : Prop :=
  (∀ (g : BitVec 4) (d a b : BitVec 5) (f : BitVec 6) (s : State),
      let x (j : Nat) : W32 := s.getV a j
      let y (j : Nat) : W32 := s.getV b j
      let z (j : Nat) : W32 := s.getV d j
      let m := modeF s
      ∀ r ∈ ([(.vfadd g d a b, fun j => fAdd m (x j) (y j)), (.vfsub g d a b, fun j => fSub m (x j) (y j)),
          (.vfmul g d a b, fun j => fMul m (x j) (y j)), (.vfma g d a b, fun j => fFma m false false (x j) (y j) (z j)),
          (.vfms g d a b, fun j => fFma m false true (x j) (y j) (z j)),
          (.vfnma g d a b, fun j => fFma m true false (x j) (y j) (z j)), (.vfmin g d a b, fun j => fMinMax false (x j) (y j)),
          (.vfmax g d a b, fun j => fMinMax true (x j) (y j)), (.vfrcp g d a, fun j => fRcp m (x j)),
          (.vfrsq g d a, fun j => fSqrt true m (x j)), (.vfsqrt g d a, fun j => fSqrt false m (x j)),
          (.vfexp2 g d a, fun j => fExp2 m (x j)), (.vflog2 g d a, fun j => fLog2 m (x j)),
          (.vcvtX2f g d a f, fun j => decodeElem f ((x j).toNat % 256 ^ fmtBytes f)),
          (.vcvtF2i g d a, fun j => (BitVec.ofInt 32 (fToInt true 32 m (x j)).1, (fToInt true 32 m (x j)).2)),
          (.vcvtF2u g d a, fun j => (BitVec.ofInt 32 (fToInt false 32 m (x j)).1, (fToInt false 32 m (x j)).2)),
          (.vcvtI2f g d a, fun j => intToF m (x j).toInt), (.vcvtU2f g d a, fun j => intToF m (x j).toNat),
          (.vfrnd g d a, fun j => fRnd m (x j))] : List (Instr × (Nat → W32 × Nat))),
        Takes r.1 g .lanes s →
          WritesVF r.1 d (s.guard g) (fun j => (r.2 j).1) (laneFx (s.guard g) (fun j => (r.2 j).2)) s) ∧
  (∀ (g : BitVec 4) (d a b : BitVec 6) (f : BitVec 6) (s : State),
      let x : W32 := (s.getS a).extractLsb' 0 32
      let y : W32 := (s.getS b).extractLsb' 0 32
      let z : W32 := (s.getS d).extractLsb' 0 32
      let m := modeF s
      (∀ r ∈ ([(.fadd g d a b, fAdd m x y), (.fsub g d a b, fSub m x y), (.fmul g d a b, fMul m x y),
          (.ffma g d a b, fFma m false false x y z), (.fmin g d a b, fMinMax false x y), (.fmax g d a b, fMinMax true x y),
          (.fcvtX2f g d a f, decodeElem f ((s.getS a).toNat % 256 ^ fmtBytes f)), (.fcvtI2f g d a, intToF m (s.getS a).toInt),
          (.fcvtU2f g d a, intToF m (s.getS a).toNat)] : List (Instr × W32 × Nat)),
        Takes r.1 g .scalar s → WritesSF r.1 d (r.2.1.zeroExtend 64) r.2.2 s) ∧
      (Takes (.fcvtF2i g d a) g .scalar s →
        WritesSF (.fcvtF2i g d a) d (BitVec.ofInt 64 (fToInt true 64 m x).1) (fToInt true 64 m x).2 s) ∧
      (Takes (.fcvtF2u g d a) g .scalar s →
        WritesSF (.fcvtF2u g d a) d (BitVec.ofInt 64 (fToInt false 64 m x).1) (fToInt false 64 m x).2 s))

/-- Fields of an FP32 word: its magnitude, whether it is a NaN, a signalling one (R120, R121). -/
def magF (x : W32) : Nat := x.toNat % 2 ^ 31
def isNaN (x : W32) : Prop := 0x7F800000 < magF x
def isSignalling (x : W32) : Prop := 0x7F800000 < magF x ∧ magF x < 0x7FC00000
/-- Where an FP32 word that is no NaN stands in order, -0 with +0. -/
def rankF (x : W32) : Int := if x.toNat < 2 ^ 31 then magF x else -(magF x : Int)

/-- R151, R152, R155: the lane instructions that set no flag. VFABS and VFNEG act on bit 31 and give the canonical NaN for
a NaN; VFCLASS sets the one bit of its class; VUNPK decodes the element of its part. -/
def Obligations.FlaglessLaneResults : Prop :=
  ∀ (g : BitVec 4) (d a : BitVec 5) (f : BitVec 6) (p : BitVec 2) (s : State),
    (Takes (.vfabs g d a) g .lanes s → ∃ r : Nat → W32, WritesV (.vfabs g d a) d (s.guard g) r s ∧ ∀ j < 32,
      (isNaN (s.getV a j) → r j = 0x7FC00000) ∧ (¬isNaN (s.getV a j) → r j = s.getV a j &&& 0x7FFFFFFF)) ∧
    (Takes (.vfneg g d a) g .lanes s → ∃ r : Nat → W32, WritesV (.vfneg g d a) d (s.guard g) r s ∧ ∀ j < 32,
      (isNaN (s.getV a j) → r j = 0x7FC00000) ∧ (¬isNaN (s.getV a j) → r j = s.getV a j ^^^ 0x80000000)) ∧
    (Takes (.vfclass g d a) g .lanes s → ∃ k : Nat → Nat,
      WritesV (.vfclass g d a) d (s.guard g) (fun j => BitVec.ofNat 32 (2 ^ k j)) s ∧ ∀ j < 32,
        let x := s.getV a j
        let neg := 2 ^ 31 ≤ x.toNat
        (neg → magF x = 0x7F800000 → k j = 0) ∧ (neg → 0x00800000 ≤ magF x → magF x < 0x7F800000 → k j = 1) ∧
        (neg → 0 < magF x → magF x < 0x00800000 → k j = 2) ∧ (neg → magF x = 0 → k j = 3) ∧ (¬neg → magF x = 0 → k j = 4) ∧
        (¬neg → 0 < magF x → magF x < 0x00800000 → k j = 5) ∧ (¬neg → 0x00800000 ≤ magF x → magF x < 0x7F800000 → k j = 6) ∧
        (¬neg → magF x = 0x7F800000 → k j = 7) ∧ (isSignalling x → k j = 8) ∧ (isNaN x → ¬isSignalling x → k j = 9)) ∧
    (Takes (.vunpk g d a f p) g .lanes s → WritesV (.vunpk g d a f p) d (s.guard g)
      (fun j => (decodeElem f (s.peek (s.ws + 0x200 + 0x80 * a.toNat + 32 * fmtBytes f * p.toNat + j * fmtBytes f)
        (fmtBytes f))).1) s)

/-- A node of the tree of R137: an absent input passes the other through. -/
def nodeOf {α : Type} (f : α → α → α) : Option α → Option α → Option α
  | some x, some y => some (f x y)
  | some x, none => some x
  | none, y => y
/-- One level of the tree. -/
def levelOf {α : Type} (f : α → α → α) (y : Nat → Option α) : Nat → Option α := fun i => nodeOf f (y (2 * i)) (y (2 * i + 1))

/-- R148, R149, R137: an integer reduction gives the sum, the conjunction, and so on, of the guarded lanes, whatever the
order the tree takes them in, or the identity where none is guarded, sign-extended, or zero-extended with .u. A float
reduction combines the guarded lanes in the fixed tree of five levels and gathers every node's flags. -/
def Obligations.ReductionResults : Prop :=
  (∀ (g : BitVec 4) (d : BitVec 6) (v : BitVec 5) (u : BitVec 1) (s : State),
      let l := guarded s g v
      let least (x y : W32) : W32 := if (if u = 1 then x.toNat ≤ y.toNat else x.toInt ≤ y.toInt) then x else y
      let most (x y : W32) : W32 := if (if u = 1 then y.toNat ≤ x.toNat else y.toInt ≤ x.toInt) then x else y
      let wide (x : W32) : W64 := if u = 1 then x.zeroExtend 64 else x.signExtend 64
      ∀ r ∈ ([(.vredAdd g d v, (l.foldl (fun x y => x + y) 0).signExtend 64),
          (.vredAnd g d v, (l.foldl (fun x y => x &&& y) 0xFFFFFFFF).signExtend 64),
          (.vredOr g d v, (l.foldl (fun x y => x ||| y) 0).signExtend 64),
          (.vredXor g d v, (l.foldl (fun x y => x ^^^ y) 0).signExtend 64),
          (.vredMin g d v u, wide (l.foldl least (if u = 1 then 0xFFFFFFFF else 0x7FFFFFFF))),
          (.vredMax g d v u, wide (l.foldl most (if u = 1 then 0 else 0x80000000)))] : List (Instr × W64)),
        Takes r.1 g .own s → WritesS r.1 d r.2 s) ∧
  (∀ (g : BitVec 4) (d : BitVec 6) (v : BitVec 5) (s : State),
      ∀ r ∈ ([(.vfredAdd g d v, fAdd (modeF s), 0), (.vfredMin g d v, fMinMax false, 0x7F800000),
          (.vfredMax g d v, fMinMax true, 0xFF800000)] : List (Instr × (W32 → W32 → W32 × Nat) × W32)),
        let y : Nat → Option (W32 × Nat) := fun j => if j < 32 ∧ (s.guard g).getLsbD j = true then some (s.getV v j, 0) else none
        let f : W32 × Nat → W32 × Nat → W32 × Nat := fun p q => ((r.2.1 p.1 q.1).1, (r.2.1 p.1 q.1).2 ||| p.2 ||| q.2)
        let z := ((levelOf f (levelOf f (levelOf f (levelOf f (levelOf f y))))) 0).getD (r.2.2, 0)
        Takes r.1 g .own s → WritesSF r.1 d (z.1.zeroExtend 64) z.2 s)

/-- Lane j's stochastic generator of the issuing core. -/
def genOf (s : State) (j : Nat) : W32 := (mapGet s.gens j).getD 1

/-- R154, R155, R159, R132: VCVT.f2x, VPACK and FCVT.f2x encode into a format, each lane with its own generator (FCVT.f2x
with lane 0's), which changes where a stochastic rounding of an inexact value took a draw and nowhere else. -/
def Obligations.EncodingResults : Prop :=
  ∀ (g : BitVec 4) (d a : BitVec 5) (c e : BitVec 6) (f : BitVec 6) (p : BitVec 2) (s : State),
    let r (j : Nat) : Nat × Nat × W32 := encodeElem f s.rm s.sat (genOf s j) (num32 (s.getV a j))
    let q : Nat × Nat × W32 := encodeElem f s.rm s.sat (genOf s 0) (num32 ((s.getS e).extractLsb' 0 32))
    let on (j : Nat) : Bool := (s.guard g).getLsbD j
    let fx : W64 := s.flags ||| BitVec.ofNat 64 (laneFx (s.guard g) (fun j => (r j).2.1) % 32)
    (Takes (.vcvtF2x g d a f) g .lanes s →
      ∃ t G, exec (.vcvtF2x g d a f) s = .next t ∧ t.cx.pc = s.nextPc ∧ t.flags = fx ∧
        (∀ j < 32, t.getV d j = if on j then BitVec.ofNat 32 (r j).1 else s.getV d j) ∧
        (∀ j < 32, genOf (s.setGens G) j = if on j then (r j).2.2 else genOf s j) ∧
        Framed (s.setGens G) t (fun x => inV s d x ∨ inItem s 0x1240 8 x)) ∧
    (Takes (.vpack g d a f p) g .lanes s → (Instr.vpack g d a f p).selectorOk = true →
      ∃ t G, exec (.vpack g d a f p) s = .next t ∧ t.cx.pc = s.nextPc ∧ t.flags = fx ∧
        (∀ j < 32, t.peek (s.ws + packedOff d f p j) (fmtBytes f) =
          if on j then (r j).1 % 256 ^ fmtBytes f else s.peek (s.ws + packedOff d f p j) (fmtBytes f)) ∧
        (∀ j < 32, genOf (s.setGens G) j = if on j then (r j).2.2 else genOf s j) ∧
        Framed (s.setGens G) t (fun x => inItem s (packedOff d f p 0) (32 * fmtBytes f) x ∨ inItem s 0x1240 8 x)) ∧
    (Takes (.fcvtF2x g c e f) g .scalar s →
      ∃ t G, exec (.fcvtF2x g c e f) s = .next t ∧ t.cx.pc = s.nextPc ∧
        t.flags = s.flags ||| BitVec.ofNat 64 (q.2.1 % 32) ∧ (c ≠ 0 → t.getS c = BitVec.ofNat 64 q.1) ∧
        (∀ j < 32, genOf (s.setGens G) j = if j = 0 then q.2.2 else genOf s j) ∧
        Framed (s.setGens G) t (fun x => inS s c x ∨ inItem s 0x1240 8 x))

/-- A float condition: false of a NaN, but for "not equal" and "unordered" (R74). -/
def conditionF (cc : Nat) (x y : W32) : Prop :=
  match cc with
  | 0 => ¬isNaN x ∧ ¬isNaN y ∧ rankF x = rankF y
  | 1 => isNaN x ∨ isNaN y ∨ rankF x ≠ rankF y
  | 2 => ¬isNaN x ∧ ¬isNaN y ∧ rankF x < rankF y
  | 3 => ¬isNaN x ∧ ¬isNaN y ∧ rankF x ≤ rankF y
  | 4 => ¬isNaN x ∧ ¬isNaN y ∧ rankF y < rankF x
  | 5 => ¬isNaN x ∧ ¬isNaN y ∧ rankF y ≤ rankF x
  | _ => isNaN x ∨ isNaN y

/-- A float compare sets invalid (R153): for a signalling NaN, and for any NaN unless it tests for equality or order
itself. -/
def invalidF (cc : Nat) (x y : W32) : Prop :=
  isSignalling x ∨ isSignalling y ∨ ((2 ≤ cc ∧ cc ≤ 5) ∧ (isNaN x ∨ isNaN y))

/-- R153, R160: VFCMP writes the condition's value in the guarded lanes of P[p], FCMP a pair of predicates as CMP does,
zeros where G[0] is 0; each sets invalid (bit 4 of FLAGS) for the compares it makes, and no other flag. -/
def Obligations.FloatCompareResults : Prop :=
  ∀ (g : BitVec 4) (a b : BitVec 5) (c e : BitVec 6) (p q : BitVec 3) (cc : BitVec 4) (s : State), ccFloat cc = true →
    (Takes (.vfcmp g p a b cc) g .lanes s → ∃ t, exec (.vfcmp g p a b cc) s = .next t ∧ t.cx.pc = s.nextPc ∧
      Framed s t (fun x => inP s p x ∨ inItem s 0x1240 8 x) ∧
      (p ≠ 7 → ∀ j < 32, ((s.guard g).getLsbD j = false → (t.getP p).getLsbD j = (s.getP p).getLsbD j) ∧
        ((s.guard g).getLsbD j = true → ((t.getP p).getLsbD j = true ↔ conditionF cc.toNat (s.getV a j) (s.getV b j)))) ∧
      ((∃ j < 32, (s.guard g).getLsbD j = true ∧ invalidF cc.toNat (s.getV a j) (s.getV b j)) → t.flags = s.flags ||| 16) ∧
      (¬(∃ j < 32, (s.guard g).getLsbD j = true ∧ invalidF cc.toNat (s.getV a j) (s.getV b j)) → t.flags = s.flags)) ∧
    (Takes (.fcmp g p q c e cc) g .own s →
      let x : W32 := (s.getS c).extractLsb' 0 32
      let y : W32 := (s.getS e).extractLsb' 0 32
      let on := s.holds g = true
      ∃ t, exec (.fcmp g p q c e cc) s = .next t ∧ t.cx.pc = s.nextPc ∧
        Framed s t (fun z => inP s p z ∨ inP s q z ∨ inItem s 0x1240 8 z) ∧
        (p ≠ 7 → p ≠ q → (on ∧ conditionF cc.toNat x y → t.getP p = 0xFFFFFFFF) ∧
          (¬(on ∧ conditionF cc.toNat x y) → t.getP p = 0)) ∧
        (q ≠ 7 → (on ∧ ¬conditionF cc.toNat x y → t.getP q = 0xFFFFFFFF) ∧
          (¬(on ∧ ¬conditionF cc.toNat x y) → t.getP q = 0)) ∧
        (on ∧ invalidF cc.toNat x y → t.flags = s.flags ||| 16) ∧ (¬(on ∧ invalidF cc.toNat x y) → t.flags = s.flags))

/-- The rational a decoded finite number stands for; none for NaN and the infinities. -/
def valueOf : Machine.Num → Option ℚ
  | .fin n m e => some ((if n then -1 else 1) * (m : ℚ) * (2 : ℚ) ^ e)
  | _ => none

/-- R131: an exact value within a format's range rounds to the code the mode names. Toward zero, up and down take the
representable neighbour on their side; nearest-even takes the nearer, and of two equally near the one that is an even
multiple of their difference. Inexact is set exactly when the result differs, and no flag but it and underflow. -/
def Obligations.RoundingIsCorrect : Prop :=
  ∀ (F : Fmt) (w : Nat), ((F, w) ∈ [(fp32, 32), (fp16, 16), (bf16, 16)] ∨ ∃ f, fmtBinary8 f = true ∧ (F, w) = (b8fmt f, 8)) →
    ∀ (rm : Nat) (n : Bool) (m : Nat) (e : Int) (v top : ℚ), (n = true → F.sign.isSome = true) →
      valueOf (.fin n m e) = some v → valueOf (decodeNum F F.maxF) = some top → |v| ≤ top →
      let c := encodeNum F rm 0 false (.fin n m e)
      ∃ r, c.1 < 2 ^ w ∧ valueOf (decodeNum F c.1) = some r ∧ (c.2 % 2 = 1 ↔ r ≠ v) ∧ c.2 < 4 ∧
        ∀ k < 2 ^ w, ∀ y, valueOf (decodeNum F k) = some y →
          (rm = 1 → |r - v| ≤ |y - v| ∧ (y ≠ r → |r - v| = |y - v| → ∃ h : ℤ, r = 2 * h * |y - r|)) ∧
          (rm = 2 → |r| ≤ |v| ∧ 0 ≤ r * v ∧ (|y| ≤ |v| → |y| ≤ |r|)) ∧
          (rm = 3 → v ≤ r ∧ (v ≤ y → r ≤ y)) ∧ (rm = 4 → r ≤ v ∧ (y ≤ v → y ≤ r))

/-- R136, R121: on finite operands a sum, a difference, a product and a fused multiply-add form the exact value and round
it once to FP32 in the mode in force. A NaN operand, the addend of a fused form included, gives the canonical NaN and sets
invalid when one is signalling, and nothing else; so do the two invalid cases, infinities of two signs in a sum and 0 by
infinity in a product, which set invalid. Any other infinity is the result, with no flag. -/
def Obligations.FloatArithmeticIsRoundedOnce : Prop :=
  ∀ (rm : Nat) (x y z : W32) (np nz : Bool), 1 ≤ rm → rm ≤ 4 →
    let once (u : W32 × Nat) (v : ℚ) : Prop := ∃ n, valueOf n = some v ∧
      u.1.toNat = (encodeNum fp32 rm 0 false n).1 ∧ u.2 = (encodeNum fp32 rm 0 false n).2
    (∀ a b, valueOf (num32 x) = some a → valueOf (num32 y) = some b →
      once (fAdd rm x y) (a + b) ∧ once (fSub rm x y) (a - b) ∧ once (fMul rm x y) (a * b) ∧
      (∀ c, valueOf (num32 z) = some c → once (fFma rm np nz x y z) ((if np then -1 else 1) * (a * b) + (if nz then -1 else 1) * c))) ∧
    (isNaN x ∨ isNaN y ∨ isNaN z → (fFma rm np nz x y z).1 = 0x7FC00000 ∧
      (isSignalling x ∨ isSignalling y ∨ isSignalling z → (fFma rm np nz x y z).2 = 16) ∧
      (¬(isSignalling x ∨ isSignalling y ∨ isSignalling z) → ¬(magF x = 0 ∧ magF y = 0x7F800000) →
        ¬(magF x = 0x7F800000 ∧ magF y = 0) → (fFma rm np nz x y z).2 = 0)) ∧
    (isNaN x ∨ isNaN y → ∀ u ∈ [fAdd rm x y, fSub rm x y, fMul rm x y], u.1 = 0x7FC00000) ∧
    (isNaN x ∨ isNaN y → ∀ u ∈ [fAdd rm x y, fSub rm x y, fMul rm x y],
      (isSignalling x ∨ isSignalling y → u.2 = 16) ∧ (¬(isSignalling x ∨ isSignalling y) → u.2 = 0)) ∧
    (fAdd rm 0x7F800000 0xFF800000 = (0x7FC00000, 16)) ∧ (fSub rm 0x7F800000 0x7F800000 = (0x7FC00000, 16)) ∧
    (magF x = 0 → magF y = 0x7F800000 → fMul rm x y = (0x7FC00000, 16) ∧ fMul rm y x = (0x7FC00000, 16) ∧
      fFma rm np nz x y z = (0x7FC00000, 16) ∧ fFma rm np nz y x z = (0x7FC00000, 16)) ∧
    (magF x = 0x7F800000 → ¬isNaN y → (y = x ∨ magF y ≠ 0x7F800000 → fAdd rm x y = (x, 0) ∧ fAdd rm y x = (x, 0)) ∧
      (magF y ≠ 0 → fMul rm x y = (((x ^^^ y) &&& 0x80000000) ||| 0x7F800000, 0)))

/-- The largest finite FP32 value (R120). -/
noncomputable def topF : ℝ := (2 ^ 24 - 1) * 2 ^ 104

/-- Of a value v, r is at least as good a rounding in a mode as the candidate y (R131). -/
def betterF (rm : Nat) (r v y : ℝ) : Prop :=
  (rm = 1 → |r - v| ≤ |y - v| ∧ (y ≠ r → |r - v| = |y - v| → ∃ h : ℤ, r = 2 * h * |y - r|)) ∧
  (rm = 2 → |r| ≤ |v| ∧ 0 ≤ r * v ∧ (|y| ≤ |v| → 0 ≤ y * v → |y| ≤ |r|)) ∧
  (rm = 3 → v ≤ r ∧ (v ≤ y → r ≤ y)) ∧ (rm = 4 → r ≤ v ∧ (y ≤ v → y ≤ r))

/-- Word and flags are those of a value rounded once to FP32 (R131, R133, R135). -/
def RoundsTo (rm : Nat) (u : W32 × Nat) (v : ℝ) : Prop :=
  (|v| ≤ topF → ∃ r : ℚ, valueOf (num32 u.1) = some r ∧ (u.2 % 2 = 1 ↔ (r : ℝ) ≠ v) ∧ u.2 < 4 ∧
    ∀ (k : W32) (y : ℚ), valueOf (num32 k) = some y → betterF rm r v y) ∧
  ((2 : ℝ) ^ 128 ≤ |v| → u.2 = 5 ∧ u.1 = (if v < 0 then 0x80000000 else 0) |||
    (if rm = 2 ∨ (rm = 3 ∧ v < 0) ∨ (rm = 4 ∧ 0 < v) then 0x7F7FFFFF else 0x7F800000))

/-- An integer is a value rounded to an integer in a mode (R134, R156). -/
def RoundsToInt (rm : Nat) (z : ℤ) (a : ℚ) : Prop :=
  (rm = 1 → |z - a| ≤ 1 / 2 ∧ (|z - a| = 1 / 2 → Even z)) ∧ (rm = 2 → |(z : ℚ)| ≤ |a| ∧ |a| < |(z : ℚ)| + 1 ∧ 0 ≤ z * a) ∧
  (rm = 3 → a ≤ z ∧ z < a + 1) ∧ (rm = 4 → z ≤ a ∧ a < z + 1)

/-- R134, R136, R151, R156: the reciprocal, the square root, its reciprocal and a conversion from an integer are the exact
value rounded once; minimum and maximum order their operands, -0 below +0, and give the number beside a NaN; a conversion
to an integer rounds and keeps to the range of its width; rounding to integral keeps the sign. The special operands give
what the manual's tables state. -/
def Obligations.FloatFunctionResults : Prop :=
  ∀ (rm : Nat) (x y : W32), 1 ≤ rm → rm ≤ 4 →
    let sign := x &&& 0x80000000
    let quiet : W32 × Nat := (0x7FC00000, if 0x7F800000 < magF x ∧ magF x < 0x7FC00000 then 16 else 0)
    let negative := 2 ^ 31 ≤ x.toNat
    (∀ a : ℚ, valueOf (num32 x) = some a →
      (a ≠ 0 → RoundsTo rm (fRcp rm x) (1 / a)) ∧
      (0 < a → RoundsTo rm (fSqrt false rm x) (Real.sqrt a) ∧ RoundsTo rm (fSqrt true rm x) (1 / Real.sqrt a)) ∧
      (∃ z : ℤ, RoundsToInt rm z a ∧ valueOf (num32 (fRnd rm x).1) = some (z : ℚ) ∧ ((fRnd rm x).1 &&& 0x80000000) = sign ∧
        (fRnd rm x).2 = (if (z : ℚ) = a then 0 else 1) ∧
        ∀ (signed : Bool) (w : Nat), w = 32 ∨ w = 64 →
          let lo : ℤ := if signed then -(2 ^ (w - 1)) else 0
          let hi : ℤ := if signed then 2 ^ (w - 1) - 1 else 2 ^ w - 1
          fToInt signed w rm x = if z < lo then (lo, 16) else if hi < z then (hi, 16) else (z, if (z : ℚ) = a then 0 else 1))) ∧
    (∀ z : ℤ, |z| < 2 ^ 64 → RoundsTo rm (intToF rm z) z) ∧
    (magF x = 0 → fRcp rm x = (sign ||| 0x7F800000, 8) ∧ fSqrt false rm x = (x, 0) ∧
      fSqrt true rm x = (sign ||| 0x7F800000, 8)) ∧
    (negative → ¬isNaN x → magF x ≠ 0 → ∀ recip, fSqrt recip rm x = (0x7FC00000, 16)) ∧
    (magF x = 0x7F800000 → fRcp rm x = (sign, 0) ∧ fRnd rm x = (x, 0) ∧
      (¬negative → fSqrt false rm x = (x, 0) ∧ fSqrt true rm x = (0, 0)) ∧
      ∀ (signed : Bool) (w : Nat), w = 32 ∨ w = 64 → fToInt signed w rm x =
        (if negative then (if signed then -(2 ^ (w - 1)) else 0) else (if signed then 2 ^ (w - 1) - 1 else 2 ^ w - 1), 16)) ∧
    (isNaN x → fRcp rm x = quiet ∧ (∀ recip, fSqrt recip rm x = quiet) ∧ fRnd rm x = quiet ∧
      ∀ signed w, fToInt signed w rm x = (0, 16)) ∧
    (¬isNaN x → ¬isNaN y → (rankF x < rankF y → fMinMax false x y = (x, 0) ∧ fMinMax true x y = (y, 0)) ∧
      (rankF y < rankF x → fMinMax false x y = (y, 0) ∧ fMinMax true x y = (x, 0)) ∧
      (x = y → ∀ most, fMinMax most x y = (x, 0)) ∧
      (magF x = 0 → magF y = 0 → x ≠ y → fMinMax false x y = (0x80000000, 0) ∧ fMinMax true x y = (0, 0))) ∧
    (isNaN x → ∀ most, fMinMax most x y = (if 0x7F800000 < magF y then 0x7FC00000 else y,
        if quiet.2 = 16 ∨ (0x7F800000 < magF y ∧ magF y < 0x7FC00000) then 16 else 0) ∧
      (¬isNaN y → fMinMax most y x = (y, quiet.2)))

/-- R151: VFEXP2 and VFLOG2. Integral exponents and powers of two give their exact values, the special operands what the
table states. Every other result lies next to the value of the function, set inexact; that it is the correctly rounded
one is the model's inference from 256 bits of working precision (DEDUCED, log 17). -/
def Obligations.ExponentialAndLogarithmResults : Prop :=
  ∀ (rm : Nat) (x : W32), 1 ≤ rm → rm ≤ 4 →
    let quiet : W32 × Nat := (0x7FC00000, if 0x7F800000 < magF x ∧ magF x < 0x7FC00000 then 16 else 0)
    (isNaN x → fExp2 rm x = quiet ∧ fLog2 rm x = quiet) ∧
    (fExp2 rm 0x7F800000 = (0x7F800000, 0) ∧ fExp2 rm 0xFF800000 = (0, 0) ∧ fLog2 rm 0x7F800000 = (0x7F800000, 0)) ∧
    (magF x = 0 → fExp2 rm x = (0x3F800000, 0) ∧ fLog2 rm x = (0xFF800000, 8)) ∧
    (2 ^ 31 ≤ x.toNat → magF x ≠ 0 → ¬isNaN x → fLog2 rm x = (0x7FC00000, 16)) ∧
    (∀ a : ℚ, valueOf (num32 x) = some a →
      (∀ k : ℤ, a = k → -149 ≤ k → k ≤ 127 → (fExp2 rm x).2 = 0 ∧ valueOf (num32 (fExp2 rm x).1) = some ((2 : ℚ) ^ k)) ∧
      (∀ k : ℤ, a = (2 : ℚ) ^ k → (fLog2 rm x).2 = 0 ∧ valueOf (num32 (fLog2 rm x).1) = some (k : ℚ)) ∧
      (128 ≤ a → fExp2 rm x = (if rm = 2 ∨ rm = 4 then 0x7F7FFFFF else 0x7F800000, 5)) ∧
      (a < -151 → fExp2 rm x = (if rm = 3 then 1 else 0, 3)) ∧
      ((∀ k : ℤ, a ≠ k) → -151 ≤ a → a ≤ 127 → (fExp2 rm x).2 % 2 = 1 ∧ ∃ r : ℚ, valueOf (num32 (fExp2 rm x).1) = some r ∧
        |(r : ℝ) - (2 : ℝ) ^ (a : ℝ)| ≤ max ((2 : ℝ) ^ (a : ℝ) / 2 ^ 22) (1 / 2 ^ 149)) ∧
      (0 < a → (∀ k : ℤ, a ≠ (2 : ℚ) ^ k) → (fLog2 rm x).2 = 1 ∧ ∃ r : ℚ, valueOf (num32 (fLog2 rm x).1) = some r ∧
        |(r : ℝ) - Real.logb 2 a| ≤ |Real.logb 2 a| / 2 ^ 22))

/-- The generator of R132 after one step, and the draw of 16. -/
def lfsr (g : W32) : W32 := if g.getLsbD 0 then (g >>> 1) ^^^ 0x80200003 else g >>> 1
def drawOf (g : W32) : Nat := ((List.range 16).map (fun i => if (lfsr^[i + 1] g).getLsbD 0 then 2 ^ (15 - i) else 0)).sum

/-- The value of a finite binary8 code (R122): sign and format s, precision p. -/
def binary8 (s : Bool) (p c : Nat) : ℚ :=
  let w := if s then 8 - p else 9 - p
  let m := if s then c % 128 else c
  let v : ℚ := if m / 2 ^ (p - 1) = 0 then (m % 2 ^ (p - 1) : Nat) * (2 : ℚ) ^ (2 - 2 ^ (w - 1) - p : ℤ)
    else (2 ^ (p - 1) + m % 2 ^ (p - 1) : Nat) * (2 : ℚ) ^ ((m / 2 ^ (p - 1) : Nat) - 2 ^ (w - 1) - (p - 1) : ℤ)
  if s ∧ 128 ≤ c then -v else v

/-- R120 to R125, R132, R133, R154: what an element's code stands for, which FP32 represents exactly, and the code that a
value gets. The values of a binary8 code are those of R122; of a NaN, an infinity, a value far beyond the format's range
and a negative one of an unsigned format R133 states the code; a stochastic rounding goes up when its draw is below the
first 16 bits cut off, takes the draw of the lane's generator only then, and E8 takes the power of two below. -/
def Obligations.ElementFormats : Prop :=
  ∀ (f : BitVec 6) (c : Nat), f = 1 ∨ f = 2 ∨ f = 3 ∨ f = 4 ∨ fmtBinary8 f = true →
    let p := f.toNat % 8
    let sgn := f.getLsbD 4
    let inf := f.getLsbD 3
    let nan : Nat := if f = 1 then 0x7FC00000 else if f = 2 then 0x7E00 else if f = 3 then 0x7FC0 else if f = 4 then 0xFF
      else if sgn then 0x80 else 0xFF
    let top : Nat := if f = 1 then 0x7F7FFFFF else if f = 2 then 0x7BFF else if f = 3 then 0x7F7F
      else (if sgn then 0x7F else 0xFE) - (if inf then 1 else 0)
    let minus : Nat := if f = 1 then 0x80000000 else if f = 2 ∨ f = 3 then 0x8000 else 0x80
    let infinite : Bool := f.toNat ≤ 3 || inf
    let unsigned : Bool := fmtBinary8 f && !sgn
    (c < 256 ^ fmtBytes f →
      (∀ v, valueOf (elemNum f c) = some v → valueOf (num32 (decodeElem f c).1) = some v ∧ (decodeElem f c).2 = 0) ∧
      (fmtBinary8 f = true → c ≠ nan → c % 128 + (if sgn then 0 else c / 128 * 128) ≤ top →
        valueOf (elemNum f c) = some (binary8 sgn p c)) ∧
      (f = 4 → c ≠ 255 → valueOf (elemNum f c) = some ((2 : ℚ) ^ (c - 127 : ℤ))) ∧
      (c = nan → (decodeElem f c).1 = 0x7FC00000 ∧ (decodeElem f c).2 = 0)) ∧
    (∀ (rm : Nat) (sat : Bool) (g x : W32), 1 ≤ rm → rm ≤ 5 →
      let e := encodeElem f rm sat g (num32 x)
      (f ≠ 4 → isNaN x → e = (nan, if 0x7F800000 < magF x ∧ magF x < 0x7FC00000 then 16 else 0, g)) ∧
      (f ≠ 4 → magF x = 0x7F800000 → (unsigned = true → x.toNat < 2 ^ 31) →
        e = ((if 2 ^ 31 ≤ x.toNat then minus else 0) + (if infinite && !sat then top + 1 else top),
          if infinite && !sat then 0 else 5, g)) ∧
      (unsigned = true → 2 ^ 31 ≤ x.toNat → ¬isNaN x → magF x ≠ 0 → e = (if sat then 0 else nan, 16, g)) ∧
      (fmtBinary8 f = true → magF x = 0 → e = (0, 0, g)) ∧
      (∀ v t : ℚ, f ≠ 1 → f ≠ 4 → valueOf (num32 x) = some v → valueOf (elemNum f top) = some t → (unsigned = true → 0 ≤ v) →
        2 * t ≤ |v| → e.2.1 = 5 ∧ e.1 = (if v < 0 then minus else 0) +
          (if !infinite || sat || rm = 2 || (rm = 3 && v < 0) || (rm = 4 && 0 < v) then top else top + 1)) ∧
      (f = 4 → e.2 = (0, g) ∧ (magF x = 0 → e.1 = 0) ∧ (0x7F800000 ≤ magF x → e.1 = 255) ∧
        ∀ v, valueOf (num32 x) = some v → v ≠ 0 → e.1 ≤ 254 ∧ (e.1 ≠ 0 → (2 : ℚ) ^ (e.1 - 127 : ℤ) ≤ |v|) ∧
          (e.1 ≠ 254 → |v| < (2 : ℚ) ^ (e.1 - 126 : ℤ))) ∧
      (rm ≠ 5 ∨ fmtBinary8 f = false → f ≠ 4 → e.2.2 = g ∧
        (e.1, e.2.1) = encodeNum (fmtOf f) (if rm = 5 then 1 else rm) 0 sat (num32 x))) ∧
    (∀ (sat : Bool) (g x : W32) (m : Nat) (v lo hi : ℚ), fmtBinary8 f = true → valueOf (num32 x) = some v →
      m < top → valueOf (elemNum f m) = some lo → valueOf (elemNum f (m + 1)) = some hi → lo ≤ |v| → |v| < hi → (0 ≤ v ∨ sgn = true) →
      let e := encodeElem f 5 sat g (num32 x)
      let sign : Nat := if v < 0 then 0x80 else 0
      (|v| = lo → e = (if lo = 0 then 0 else sign + m, 0, g)) ∧
      (lo < |v| → e.2.2 = lfsr^[16] g ∧ e.2.1 % 2 = 1 ∧
        e.1 = if (drawOf g : ℚ) < ⌊(|v| - lo) / (hi - lo) * 2 ^ 16⌋ then sign + (m + 1)
          else if m = 0 then 0 else sign + m))


/-! Loads, stores and atomics (chapters 11 and 12). -/

/-- The bytes of some parts as the issuing context reads them, its own unperformed stores included, lowest address first
(R4, R228). -/
def readBy (s : State) (ps : List Part) : Nat :=
  leNat (ps.flatMap (fun p => (List.range p.len).map (fun j => s.lookFor s.cur.core s.cur.ctx (p.pa + j))))

/-- LD's extension of its 1, 2, 4 or 8 bytes: signed for k = 0, 2 and 4 (R210). -/
def loaded (k : BitVec 3) (v : Nat) : W64 :=
  match k.toNat with
  | 0 => (BitVec.ofNat 8 v).signExtend 64
  | 2 => (BitVec.ofNat 16 v).signExtend 64
  | 4 => (BitVec.ofNat 32 v).signExtend 64
  | _ => BitVec.ofNat 64 v

/-- A load whose lines pass through the caches: S[d] holds v and P6 all-ones, and no other byte of memory, no quad and no
other context changes. -/
def Fetches (i : Instr) (d : BitVec 6) (v : W64) (s : State) : Prop :=
  ∃ t, exec i s = .next t ∧ (d ≠ 0 → t.getS d = v) ∧ t.getP 6 = 0xFFFFFFFF ∧ t.cx.pc = s.nextPc ∧
    (∀ a, ¬ inS s d a → ¬ inP s 6 a → t.byte a = s.byte a) ∧ t.quads = s.quads ∧ t.cur = s.cur ∧
    ∀ n k, ¬(n = s.cur.core ∧ k = s.cur.ctx) → t.ctx n k = s.ctx n k

/-- No line of a part is one that a cache holds. -/
def Uncached (ps : List Part) : Prop :=
  ∀ p ∈ ps, isCfg p.pa = false ∧ ∀ l ∈ linesOf [(p.pa, p.len)], isHbm (64 * l) = false ∧ isHost (64 * l) = false

/-- The machine once the bytes of some parts are read: the engine counters of the configuration page have advanced (log
25), and the lines of cached memory have passed through the caches (R197, R199). -/
def counted (s : State) (ps : List Part) : State := ps.foldl (fun t p => t.engineCounters p.pa) s
def cached (s w : State) (ps : List Part) : State :=
  w.readRuns s.cur.core s.myVf s.cachePolicy (ps.map (fun p => (p.pa, p.len, p.attr.cmp)))

/-- R210, R217, R204: LD and LDL, with no arrival load and no flush in flight, write S[d] with the bytes at their address, extended,
and P6 with all-ones, and nothing else. Bytes of the configuration page are read after its engine counters have advanced
(log 25); lines of HBM and host memory pass through the caches, which changes no other byte; a home that answers with a
retry does not serve the load (R398). A poisoned byte traps with 0x3B; LDL beyond local memory traps with 0x10 and its offset. -/
def Obligations.LoadResults : Prop :=
  ∀ (g : BitVec 4) (d a b : BitVec 6) (k : BitVec 3) (o : BitVec 7) (z : BitVec 1) (s u : State) (ps : List Part),
    let size := 2 ^ (k.toNat / 2)
    let va := (s.getS a + immediate s o * BitVec.ofNat 64 size).toNat
    let n := if z = 1 then 8 else 4
    let x := (s.getS a + s.getS b).toNat
    let at' : List Part := [⟨quadLocal s.q + x, x, n, { ord := s.windowOrd x, sh := false, cmp := false, g := 0, fmt := 0 }⟩]
    s.cx.ldas = [] → s.cx.ops = [] →
    (Takes (.ld g d a k o) g .scalar s → Reaches (.ld g d a k o) accR.config (splitPages va size) s u ps →
      Served u (ps.map (fun p => (p.pa, p.len))) 0 →
      (s.partsPoison s.cur.core s.cur.ctx ps = none →
        let w := counted u ps
        Completes (.ld g d a k o) s ((cached s w ps).setS d (loaded k (readBy w ps))) s.nextPc ∧
        ((∀ p ∈ ps, isCfg p.pa = false) → Fetches (.ld g d a k o) d (loaded k (readBy s ps)) s) ∧
        (Uncached ps → Returns (.ld g d a k o) d (loaded k (readBy s ps)) s u)) ∧
      (∀ y, s.partsPoison s.cur.core s.cur.ctx ps = some y → exec (.ld g d a k o) s = .next (u.raise 0x3B (BitVec.ofNat 64 y)))) ∧
    (Takes (.ldl g d a b z) g .scalar s →
      (x + n > Memory.localSize → exec (.ldl g d a b z) s = .next (s.raise 0x10 (BitVec.ofNat 64 x))) ∧
      (x + n ≤ Memory.localSize → s.discretion (.ldl g d a b z) = 0 →
        (s.partsPoison s.cur.core s.cur.ctx at' = none →
          let w := counted s at'
          Completes (.ldl g d a b z) s ((cached s w at').setS d (BitVec.ofNat 64 (readBy w at'))) s.nextPc ∧
          (s.cur.core < 1536 → Returns (.ldl g d a b z) d (BitVec.ofNat 64 (readBy s at')) s s)) ∧
        (∀ y, s.partsPoison s.cur.core s.cur.ctx at' = some y →
          exec (.ldl g d a b z) s = .next (s.raise 0x3B (BitVec.ofNat 64 y)))))

/-- R211, R217: ST and STL, where no check of the write fails, hand the low bytes of S[d] to the store buffer or to local
memory (AcceptedStores says what that does), write P6 with all-ones, and do nothing else. -/
def Obligations.StoreResults : Prop :=
  ∀ (g : BitVec 4) (d a b : BitVec 6) (k : BitVec 2) (o : BitVec 7) (z : BitVec 1) (s u : State) (ps : List Part),
    let size := 2 ^ k.toNat
    let va := (s.getS a + immediate s o * BitVec.ofNat 64 size).toNat
    let v := (s.getS d).toNat % 256 ^ size
    let n := if z = 1 then 8 else 4
    let x := (s.getS a + s.getS b).toNat
    let p : Part := ⟨quadLocal s.q + x, x, n, { ord := s.windowOrd x, sh := false, cmp := false, g := 0, fmt := 0 }⟩
    let y := (s.getS d).toNat % 256 ^ n
    (Takes (.st g d a k o) g .scalar s → Reaches (.st g d a k o) accW.config (splitPages va size) s u ps →
      s.protectedIn ps = none → s.cfgFault ps v = none →
      Completes (.st g d a k o) s (u.acceptStore .plain s.cachePolicy false (withAttr ps (segsOf ps v))) s.nextPc) ∧
    (Takes (.stl g d a b z) g .scalar s → s.discretion (.stl g d a b z) = 0 → x % n = 0 → x + n ≤ Memory.localSize →
      s.protectedIn [p] = none → s.cfgFault [p] y = none →
      Completes (.stl g d a b z) s (s.acceptStore .plain 0 false (withAttr [p] (segsOf [p] y))) s.nextPc)

/-- No host waits for a write of a word (R369): a write then sets off nothing that writes memory itself. -/
def NoHostWatch (s : State) : Prop := ∀ e ∈ s.hub.waits, ∀ t, e.waiter ≠ .host t

/-- R211, R228, R229, R80, R91: what accepting a store does in a context with no arrival load, no flush and no posted store
in flight. Bytes of HBM, host memory and the configuration page wait in the store buffer, behind the stores before them,
in their own order and each with the kind of its own page, and memory is as it was. Bytes of local memory, with no store
waiting, are in memory at once (log 7), but for the reserved bytes of a workspace and for PRIV and PK; every other byte
stays. -/
def Obligations.AcceptedStores : Prop :=
  ∀ (s : State) (kind : StoreKind) (cache : Nat) (scatter : Bool) (parts : List (Attr × Seg)), s.cx.ldas = [] → s.cx.ops = [] →
    (∀ e ∈ (s.core s.cur.core).journal, e.2.state = .pending → e.2.owner ≠ s.cur.ctx) → parts ≠ [] →
    let segs := parts.map (fun x => x.2)
    ((∀ r ∈ segs, isHbm r.pa = true ∨ isHost r.pa = true ∨ isCfg r.pa = true) →
      ∃ l : List PendStore, s.acceptStore kind cache scatter parts = s.modCx (fun x => { x with stores := x.stores ++ l }) ∧
        l.flatMap (fun p => p.segs) = segs ∧ ∀ p ∈ l, p.kind = kind ∧ p.cache = cache ∧ p.vf = s.myVf ∧
          ∀ r ∈ p.segs, ∃ o, (o, r) ∈ parts ∧ p.ord = storeOrd o.ord r.pa) ∧
    ((∀ r ∈ segs, isLocal r.pa = true ∧ ∀ j < r.bytes.length, isLocal (r.pa + j) = true) → s.cx.stores = [] → NoHostWatch s →
      ∀ a, (s.acceptStore kind cache scatter parts).byte a =
        if s.isReserved a then s.byte a
        else match segsAt segs a with
          | some b => if s.isModeByte a then (b &&& 0x5F) ||| (s.byte a &&& 0xA0) else b
          | none => s.byte a)

/-- The address A of a contiguous vector access, the attributes of its page, and the machine with the translations cached
(R213): found with no fault, A aligned to its element, its page not in transit. -/
def vectorTarget (s : State) (a : BitVec 6) (o : BitVec 7) : Option (State × Nat × Attr) :=
  match (if immediate s o = 0 then (s, Place.at 0 ⟨1, false, false, 0, 0⟩ false)
      else s.place s.me accAttr (s.getS a).toNat) with
  | (t, .at _ at0 _) =>
    let va := (s.getS a + immediate s o * BitVec.ofNat 64 (32 * fmtBytes at0.fmt)).toNat
    match t.place t.me accAttr va with
    | (u, .at _ at1 false) => if va % fmtBytes at1.fmt = 0 then some (u, va, at1) else none
    | _ => none
  | _ => none

/-- The guarded elements of a contiguous access, of pages that agree with that of A (R213, R214). -/
structure Contiguous (i : Instr) (g : BitVec 4) (acc : Acc) (a : BitVec 6) (o : BitVec 7) (s u : State) (ls : List Lane) :
    Prop where
  found   : ∃ t va at0, vectorTarget s a o = some (t, va, at0) ∧
    t.xlateLanes false acc ((s.guardLanes g).map (fun j => (j, (va + j * fmtBytes at0.fmt) % 2 ^ 64))) = (u, ⟨ls, none, false⟩) ∧
    ∀ l ∈ ls, l.part.attr.fmt = at0.fmt ∧ l.part.attr.g = at0.g ∧ l.part.attr.sh = at0.sh
  willing : s.discretion i = 0

/-- The guarded elements of a strided or indexed access (R215). -/
structure Scattered (i : Instr) (acc : Acc) (places : List (Nat × Nat)) (s u : State) (ls : List Lane) : Prop where
  found   : s.xlateLanes true acc places = (u, ⟨ls, none, false⟩)
  willing : s.discretion i = 0

/-- R212, R214: LDA counts its arrival and puts a load in flight, which takes its registers, its address and, as the
completion leaves them, the bytes of its own workspace now (R82), behind its context's flushes of its lines (R228); with
its counter at 65,535 it is not ready, code 0x14. VLDA does the same, at the counter its k names, for its guarded elements,
its kind the strongest of its data and scale pages. -/
def Obligations.ArrivalLoadsStart : Prop :=
  ∀ (g : BitVec 4) (d a : BitVec 6) (v : BitVec 5) (n : BitVec 2) (k : BitVec 3) (z : BitVec 1) (o : BitVec 7) (s u : State)
    (ps : List Part) (ls : List Lane),
    let size := if z = 1 then 8 else 4
    let va := (s.getS a + immediate s o * BitVec.ofNat 64 size).toNat
    let start (c : Nat) (l : Lda) : State :=
      let t := (u.beforeAccess s.cur.core s.cur.ctx l.reads (l.ord = 0)).setArrival c (s.arrival c + 1)
      t.modCx (fun x => { x with ldas := x.ldas ++ [{ l with own := (t.setP 6 0xFFFFFFFF).ownBytes l.reads }] })
    let m := k.toNat - 2
    (Takes (.lda g d a n z o) g .scalar s → Reaches (.lda g d a n z o) accR.config (splitPages va size) s u ps →
      (s.arrival n.toNat ≠ 0xFFFF → Completes (.lda g d a n z o) s (start n.toNat
        { vec := false, dbl := z = 1, dst := d.toNat, ctr := n.toNat, ws := s.ws, va := va, ord := ordOf ps,
          rm := s.roundMode, bytes := ps.map (fun p => (p.pa, p.len)), elems := [], cache := s.cachePolicy,
          own := [], old := [] }) s.nextPc) ∧
      (s.arrival n.toNat = 0xFFFF → exec (.lda g d a n z o) s = .next (u.notReady (.lda g d a n z o) 0x14 []))) ∧
    (Takes (.vlda g v a k o) g .lanes s → Contiguous (.vlda g v a k o) g accR.config a o s u ls →
      (s.arrival m ≠ 0xFFFF → Completes (.vlda g v a k o) s (start m
        { vec := true, dbl := false, dst := v.toNat, ctr := m, ws := s.ws,
          va := (ls.head?.map (fun l => l.part.va)).getD 0, ord := ordOf (ls.map (fun l => l.part) ++ ls.filterMap (fun l => l.scale)), rm := s.roundMode,
          bytes := [], elems := ls.map Lane.elem, cache := s.cachePolicy, own := [], old := [] }) s.nextPc) ∧
      (s.arrival m = 0xFFFF → exec (.vlda g v a k o) s = .next (u.notReady (.vlda g v a k o) 0x14 [])))

/-- The lane that an element gives (R128): its bytes and its scale byte, 127 where its page has none, decoded. -/
def laneBy (s : State) (l : Lane) : W32 :=
  loadLane l.part.attr.fmt l.part.attr.sh
    (match l.scale with | some p => (s.lookFor s.cur.core s.cur.ctx p.pa).toNat | none => 127) s.roundMode
    (leNat ((List.range (fmtBytes l.part.attr.fmt)).map (fun j => s.lookFor s.cur.core s.cur.ctx (l.part.pa + j))))

/-- The element of a vector store, with its lane's generator after it (R129). -/
def elementOf (s : State) (d : BitVec 5) (l : Lane) : Nat × W32 :=
  storeElem l.part.attr.fmt l.part.attr.sh
    (match l.scale with | some p => (s.lookFor s.cur.core s.cur.ctx p.pa).toNat | none => 127) s.roundMode (genOf s l.lane)
    (s.getV d l.lane)

/-- R213 to R215, R128: VLD, VLDS and VLDX, with no arrival load and no flush in flight and no poison about, write in each
guarded lane of V[d] the element at its address, as its page's format decodes it, and P6; the lines pass through the caches,
and nothing else changes. (Where others have written memory during its turn, R130 lets an element and its scale byte mix:
`past`.) R129: VST, VSTS and VSTX, with no arrival load and no flush in flight, where no check of a write fails and nothing
is poisoned, hand one element for each guarded lane to the store buffer or to local memory, in lane order, each rounded with
its own lane's generator. -/
def Obligations.VectorLoadAndStoreResults : Prop :=
  (∀ (g : BitVec 4) (d v : BitVec 5) (a b : BitVec 6) (o : BitVec 7) (s u : State) (ls : List Lane),
      let e := (u.readRuns s.cur.core s.myVf s.cachePolicy (laneCached ls)).setVAt s.ws d.toNat
        (ls.map (fun l => (l.lane, laneBy s l)))
      s.cx.ldas = [] → s.cx.ops = [] → s.cx.past = [] → s.poison = [] → (∀ l ∈ ls, isCfg l.part.pa = false) →
      Served u (laneRuns ls) 0 →
      (Takes (.vld g d a o) g .lanes s → Contiguous (.vld g d a o) g accR.config a o s u ls →
        Completes (.vld g d a o) s e s.nextPc) ∧
      (Takes (.vlds g d a b) g .lanes s → Scattered (.vlds g d a b) accR.config
        ((s.guardLanes g).map (fun j => (j, (s.getS a + BitVec.ofNat 64 j * s.getS b).toNat))) s u ls →
        Completes (.vlds g d a b) s e s.nextPc) ∧
      (Takes (.vldx g d a v) g .lanes s → Scattered (.vldx g d a v) accR.config
        ((s.guardLanes g).map (fun j => (j, (s.getS a + (s.getV v j).signExtend 64).toNat))) s u ls →
        Completes (.vldx g d a v) s e s.nextPc)) ∧
  (∀ (g : BitVec 4) (d v : BitVec 5) (a b : BitVec 6) (o : BitVec 7) (s u : State) (ls : List Lane),
      let segs : List Seg := ls.map (fun l => ⟨l.part.pa, l.part.va, toLE l.part.len (elementOf s d l).1⟩)
      let stored (i : Instr) (scatter : Bool) : Prop := ∃ G, Completes i s
          ((u.acceptStore .plain s.cachePolicy scatter (withAttr (laneParts ls) segs)).setGens G) s.nextPc ∧
        ∀ j < 32, (∀ l ∈ ls, l.lane = j → genOf (s.setGens G) j = (elementOf s d l).2) ∧
          ((∀ l ∈ ls, l.lane ≠ j) → genOf (s.setGens G) j = genOf s j)
      s.cx.ldas = [] → s.cx.ops = [] → s.poison = [] → s.protectedIn (laneParts ls) = none → (∀ l ∈ ls, isCfg l.part.pa = false) →
      (Takes (.vst g d a o) g .lanes s → Contiguous (.vst g d a o) g accW.config a o s u ls → stored (.vst g d a o) false) ∧
      (Takes (.vsts g d a b) g .lanes s → Scattered (.vsts g d a b) accW.config
        ((s.guardLanes g).map (fun j => (j, (s.getS a + BitVec.ofNat 64 j * s.getS b).toNat))) s u ls → stored (.vsts g d a b) true) ∧
      (Takes (.vstx g d a v) g .lanes s → Scattered (.vstx g d a v) accW.config
        ((s.guardLanes g).map (fun j => (j, (s.getS a + (s.getV v j).signExtend 64).toNat))) s u ls → stored (.vstx g d a v) true))

/-- R218: PST, aligned and permitted, takes the lowest FREE journal entry, PENDING, with its bytes and its privilege; one
to the context's own workspace is performed at once (log 7); with none FREE it is not ready, code 0x13. -/
def Obligations.PostedStoreResults : Prop :=
  ∀ (g : BitVec 4) (d a : BitVec 6) (z : BitVec 1) (s u : State) (ps : List Part),
    let i : Instr := .pst g d a z
    let size := if z = 1 then 8 else 4
    let va := (s.getS a).toNat
    let v := (s.getS d).toNat % 256 ^ size
    Takes i g .scalar s → va % size = 0 → Reaches i accW.config.global (splitPages va size) s u ps →
    s.cfgFault ps v = none → Quiet s →
    ((∀ j < 32, ((s.core s.cur.core).entry j).state ≠ .free) → exec i s = .next (u.notReady i 0x13 [])) ∧
    (∀ j < 32, ((s.core s.cur.core).entry j).state = .free → (∀ m < j, ((s.core s.cur.core).entry m).state ≠ .free) →
      let w := (u.modHub (fun h => { h with order := h.order + 1 })).modEntry s.cur.core j (fun _ =>
        { state := .pending, cause := 0, owner := s.cur.ctx, priv := s.priv, dbl := z = 1, va := s.getS a, vf := s.myVf,
          ord := (ps.map (fun p => storeOrd p.attr.ord p.pa)).foldl min 2, segs := segsOf ps v, order := s.hub.order })
      Completes i s (if overlap (ps.map (fun p => (p.pa, p.len))) [(s.ws, 0x1400)] then w.settlePost s.cur.core j else w) s.nextPc)

/-- R219 to R221: PREF never traps and changes no memory; the line of S[a], of cached memory that translates and is not in
transit, at most joins the fill queue of its own core; FLUSH, in a context with no
access in flight, puts the flush of its line in flight, of a line that a cache may hold; CFETCH marks its slot FILLING, traps with 0x08 for an occupied slot, and is not ready, code 0x1A, for one
that is FILLING. -/
def Obligations.LineAndSlotResults : Prop :=
  ∀ (g : BitVec 4) (a : BitVec 6) (n : BitVec 4) (s u : State) (ps : List Part) (p : Part),
    (Takes (.pref g a) g .scalar s → ∃ e, Completes (.pref g a) s e s.nextPc ∧ e.mem = s.mem ∧ e.poison = s.poison ∧
      { e.hub with walkCache := [], walks := [] } = { s.hub with walkCache := [], walks := [] } ∧ e.quads = s.quads ∧
      ∀ m, { e.core m with tlb := [], fills := [] } = { s.core m with tlb := [], fills := [] } ∧
        ((e.core m).fills = (s.core m).fills ∨ (m = s.cur.core ∧ ∃ t pa att, s.place s.me accR (s.getS a).toNat = (t, .at pa att false) ∧
          (isHbm pa = true ∨ isHost pa = true) ∧ (e.core m).fills = (s.core m).fills ++ [lineOf pa]))) ∧
    (Takes (.flush g a) g .scalar s → Reaches (.flush g a) accR [((s.getS a).toNat, 1)] s u [p] → Quiet s →
      Served u [(p.pa, p.len)] 12 →
      Completes (.flush g a) s (if isHbm p.pa || isHost p.pa then
        u.modCx (fun x => { x with ops := x.ops ++ [.flush (lineOf p.pa) s.myVf p.attr.ord] }) else u) s.nextPc) ∧
    (Takes (.cfetch g a n) g .scalar s → (s.getS a).toNat % 4096 = 0 →
      Reaches (.cfetch g a n) accX [((s.getS a).toNat, 4096)] s u ps →
      (s.occupied s.cur.core n.toNat = true → exec (.cfetch g a n) s = .next (u.raise 0x08 0)) ∧
      (s.occupied s.cur.core n.toNat = false → ((s.core s.cur.core).slot n.toNat).state = .filling →
        exec (.cfetch g a n) s = .next (u.notReady (.cfetch g a n) 0x1A [])) ∧
      (s.occupied s.cur.core n.toNat = false → ((s.core s.cur.core).slot n.toNat).state ≠ .filling → ps = [p] →
        Completes (.cfetch g a n) s (u.modSlot s.cur.core n.toNat (fun x =>
          { x with state := .filling, sva := s.getS a, vf := s.myVf, frame := p.pa })) s.nextPc))

/-- The combination of an AMO or RED (R222): old value, S[b], and S[d] for compare-and-swap. -/
def combined {w : Nat} (f : Nat) (old y c : BitVec w) : BitVec w :=
  match f with
  | 0 => old + y
  | 1 => old &&& y
  | 2 => old ||| y
  | 3 => old ^^^ y
  | 4 => if old.toInt ≤ y.toInt then old else y
  | 5 => if y.toInt ≤ old.toInt then old else y
  | 6 => if old.toNat ≤ y.toNat then old else y
  | 7 => if y.toNat ≤ old.toNat then old else y
  | 8 => y
  | _ => if old = c then y else old

/-- R222, R223: AMO and RED, in a context with no access in flight, combine the word with S[b] at its home at once (RED's
time is the model's, log 26); AMO returns the old word in S[d], a 4-byte one sign-extended. A compare-and-swap that fails
writes nothing. Every byte but the word's stays, where no continuation and no barrier watches it (R296, R319). A home that
refuses makes an AMO trap with 0x19; one that answers with a retry serves neither (R398). The home's culture takes its
action for the request, and one that does not take the atomic's bytes (`takes`, R264) leaves the word as it is; a stack
counts its line (R303). -/
def Obligations.AtomicResults : Prop :=
  ∀ (z : BitVec 1) (g : BitVec 4) (d a b : BitVec 6) (f : BitVec 4) (h : BitVec 3) (s u : State) (p : Part),
    let w := if z = 1 then 8 else 4
    let old := s.view p.pa w
    let y := (s.getS b).toNat
    let fresh (f : Nat) (c : Nat) : Nat := (combined f (BitVec.ofNat (8 * w) old) (BitVec.ofNat (8 * w) y) (BitVec.ofNat (8 * w) c)).toNat
    let back : W64 := if z = 1 then BitVec.ofNat 64 old else (BitVec.ofNat 32 old).signExtend 64
    let home (ev : Nat) : State := (u.serveRuns [(p.pa, p.len)] ev (some (tileOf s.cur.core))).chargeHbm s.myVf [(p.pa, p.len)]
    (s.getS a).toNat % w = 0 → Quiet s → s.poison = [] → isCfg p.pa = false → s.protectedIn [p] = none →
    (Takes (.amo z g d a b f) g .scalar s → Reaches (.amo z g d a b f) accRW.config [((s.getS a).toNat, w)] s u [p] →
      Served u [(p.pa, p.len)] 3 →
      (s.refuses p.pa 3 = true → exec (.amo z g d a b f) s = .next ((home 3).raise 0x19 (s.getS a))) ∧
      (s.refuses p.pa 3 = false → Completes (.amo z g d a b f) s
        ((if (f = 9 ∧ BitVec.ofNat (8 * w) old ≠ BitVec.ofNat (8 * w) (s.getS d).toNat) ∨ s.takes p.pa 3 = false then home 3
          else (home 3).atomicWrite s.myVf p (f = 0) (fresh f.toNat (s.getS d).toNat)).setS d back) s.nextPc)) ∧
    (Takes (.red z g a b h) g .scalar s → Reaches (.red z g a b h) accRW.config [((s.getS a).toNat, w)] s u [p] →
      Served u [(p.pa, p.len)] 4 →
      Completes (.red z g a b h) s
        (if s.refuses p.pa 4 then (home 4).pendCause s.cur.core s.cur.ctx 0x19 (s.getS a) true
          else if s.takes p.pa 4 = false then home 4 else (home 4).atomicWrite s.myVf p (h = 0) (fresh h.toNat 0)) s.nextPc) ∧
    (NoHostWatch s → (∀ j < p.len, s.isReserved (p.pa + j) = false ∧ s.isModeByte (p.pa + j) = false) →
      ∀ (vf v : Nat) (add : Bool) (x : Nat),
      (add = true → (∀ q ∈ s.hub.susps, q.registered ≠ some (p.pa / 8 * 8)) ∧ ¬(isLocal (p.pa / 8 * 8) = true ∧ p.pa / 8 % 2 = 1)) →
      (s.atomicWrite vf p add v).byte x =
        if p.pa ≤ x ∧ x < p.pa + p.len then BitVec.ofNat 8 (v / 256 ^ (x - p.pa)) else s.byte x)

/-- The machine once an acquire has read a run: the release tag of its line is met by the bytes that memory gave, not by
those of the context's own stores (R255). -/
def met (s w : State) (p : Part) : State :=
  w.meetTag s.cur.core s.priv (lineOf p.pa) ((fromTo p.pa p.len).filter (fun a => (w.ownStore s.cur.core s.cur.ctx a).isNone))

/-- R236 to R239: RELST and FENCE complete only when the context's earlier accesses are performed, else they are not ready
with code 0x19. RELST and FENCE raise the release event for the lines of which their tile holds private state (R263). RELST
hands its bytes on as a release of its scope, FENCE and ACQLD take the acquire actions of theirs;
ACQLD, served by the home of its line, loads S[d], a 4-byte word sign-extended, and meets the release tag of bytes that
memory gives it (R255). -/
def Obligations.AcquireAndRelease : Prop :=
  ∀ (g : BitVec 4) (d a : BitVec 6) (sc : BitVec 3) (z : BitVec 1) (s u : State) (ps : List Part) (p : Part),
    let w := if z = 1 then 8 else 4
    let va := (s.getS a).toNat
    let v := (s.getS d).toNat % 256 ^ w
    let scope := if s.priv = true ∧ sc.toNat < 2 then 2 else sc.toNat
    (Takes (.relst g d a sc z) g .scalar s → va % w = 0 → Reaches (.relst g d a sc z) accW.config (splitPages va w) s u ps →
      s.protectedIn ps = none → s.cfgFault ps v = none →
      (s.unperformed false = true → exec (.relst g d a sc z) s = .next (u.notReady (.relst g d a sc z) 0x19 [])) ∧
      (s.unperformed false = false →
        Completes (.relst g d a sc z) s ((u.raiseRel s.cur.core).acceptStore (.release scope) 0 false
          (withAttr ps (segsOf ps v))) s.nextPc)) ∧
    (Takes (.acqld g d a sc z) g .scalar s → va % w = 0 → Reaches (.acqld g d a sc z) accR.config (splitPages va w) s u [p] →
      s.cx.ldas = [] → s.cx.ops = [] → s.poison = [] → isCfg p.pa = false → Served u [(p.pa, p.len)] 0 →
      Completes (.acqld g d a sc z) s (((met s (cached s u [p]) p).acquire s.cur.core scope).setS d
        (if z = 1 then BitVec.ofNat 64 (readBy s [p]) else (BitVec.ofNat 32 (readBy s [p])).signExtend 64)) s.nextPc) ∧
    (Takes (.fence g sc) g .scalar s →
      (s.unperformed true = true → exec (.fence g sc) s = .next (s.notReady (.fence g sc) 0x19 [])) ∧
      (s.unperformed true = false → Completes (.fence g sc) s ((s.raiseRel s.cur.core).acquire s.cur.core scope) s.nextPc))

/-- R203, R207, R211, R217, R222: where an access traps. A form that must be aligned, and is not, traps with 0x07, an
atomic or a release or acquire with 0x04, at its address; LDL and STL past the end of local memory trap with 0x10, before
the alignment of STL is tested (log 59); the first piece that does not translate gives its cause and
address; a page in transit makes the access not ready with 0x12. -/
def Obligations.AccessTraps : Prop :=
  ∀ (g : BitVec 4) (d a b : BitVec 6) (k : BitVec 3) (l : BitVec 2) (o : BitVec 7) (n : BitVec 2) (z : BitVec 1) (f : BitVec 4)
    (h : BitVec 3) (e : BitVec 4) (s : State),
    let w := if z = 1 then 8 else 4
    let va := s.getS a
    let off (size : Nat) : Nat := (s.getS a + immediate s o * BitVec.ofNat 64 size).toNat
    (∀ r ∈ ([(.pst g d a z, 0x07, va, w), (.cfetch g a e, 0x07, va, 4096),
        (.amo z g d a b f, 0x04, va, w), (.red z g a b h, 0x04, va, w), (.relst g d a h z, 0x04, va, w),
        (.acqld g d a h z, 0x04, va, w)] : List (Instr × BitVec 6 × W64 × Nat)),
      Takes r.1 g .scalar s → r.2.2.1.toNat % r.2.2.2 ≠ 0 → exec r.1 s = .next (s.raise r.2.1 r.2.2.1)) ∧
    (let x := va + s.getS b;
      (∀ i ∈ ([.ldl g d a b z, .stl g d a b z] : List Instr), Takes i g .scalar s → Memory.localSize < x.toNat + w →
        exec i s = .next (s.raise 0x10 x)) ∧
      (Takes (.stl g d a b z) g .scalar s → x.toNat + w ≤ Memory.localSize → x.toNat % w ≠ 0 →
        exec (.stl g d a b z) s = .next (s.raise 0x07 x))) ∧
    (∀ r ∈ ([(.ld g d a k o, accR.config, splitPages (off (2 ^ (k.toNat / 2))) (2 ^ (k.toNat / 2)), 1, va),
        (.st g d a l o, accW.config, splitPages (off (2 ^ l.toNat)) (2 ^ l.toNat), 1, va),
        (.lda g d a n z o, accR.config, splitPages (off w) w, 1, va), (.flush g a, accR, [(va.toNat, 1)], 1, va),
        (.pst g d a z, accW.config.global, splitPages va.toNat w, w, va), (.cfetch g a e, accX, [(va.toNat, 4096)], 4096, va),
        (.amo z g d a b f, accRW.config, splitPages va.toNat w, w, va), (.red z g a b h, accRW.config, splitPages va.toNat w, w, va),
        (.relst g d a h z, accW.config, splitPages va.toNat w, w, va), (.acqld g d a h z, accR.config, splitPages va.toNat w, w, va)] :
          List (Instr × Acc × List (Nat × Nat) × Nat × W64)),
      Takes r.1 g .scalar s → r.2.2.2.2.toNat % r.2.2.2.1 = 0 → s.discretion r.1 = 0 → ∀ u x, s.xlate s.me r.2.1 r.2.2.1 = (u, x) →
        (∀ c y, x.fault = some (c, y) → exec r.1 s = .next (u.raise c (BitVec.ofNat 64 y))) ∧
        (x.fault = none → x.tr = true → exec r.1 s = .next (u.notReady r.1 0x12 [])))


/-! Counters, watches, copies and queues (chapters 14 and 17). -/

/-- A handler's core and quad scopes are those of its tile (R226). -/
def scopeHere (s : State) (sc : BitVec 3) : Nat := if s.priv = true ∧ sc.toNat < 2 then 2 else sc.toNat

/-- The same of a scope that an event has by itself. -/
def ownScope (s : State) (sc : Nat) : Nat := if s.priv = true ∧ sc < 2 then 2 else sc

/-- The smallest scope, of quad or wider, that holds two cores (R86). -/
def between (m n : Nat) : Nat := if quadOf m = quadOf n then 1 else if tileOf m = tileOf n then 2 else if dieOf m = dieOf n then 3 else 4

/-- No continuation waits for a counter (R319): an add then writes no record of a task queue. -/
def NoSuspended (s : State) (pa : Nat) : Prop := ∀ q ∈ s.hub.susps, q.registered ≠ some pa

/-- R281, R283, R284, R285: TLADD, once its context's earlier accesses are performed, adds to its counter as a signed sum
that stops at 2^63 - 1 (PRIV and PK stay, R91); WAITGE completes when the counter has reached S[b], else it is not ready, code 0x04; WAITA when
the arrival counter is 0, else code 0x05. TLADD and WAITGE ask the home of their word, which must serve them (R398). -/
def Obligations.TimelineResults : Prop :=
  ∀ (g : BitVec 4) (sc : BitVec 3) (n : BitVec 2) (a b : BitVec 6) (s u : State) (p : Part),
    let va := (s.getS a).toNat
    (Takes (.tladd g sc a b) g .scalar s → va % 8 = 0 → Quiet s → s.poison = [] → isCfg p.pa = false →
      s.protectedIn [p] = none → Reaches (.tladd g sc a b) accRW.config.global [(va, 8)] s u [p] →
      Served u [(p.pa, p.len)] 3 →
      let added := (u.counterAdd (tileOf s.cur.core) s.myVf p.pa va (s.getS b).toNat).1
      Completes (.tladd g sc a b) s
        (if s.refuses p.pa 3 then added.pendCause s.cur.core s.cur.ctx 0x19 (BitVec.ofNat 64 va) true else added) s.nextPc) ∧
    (∀ part vf pa x amount : Nat, s.refuses pa 3 = false → s.takes pa 3 = true → s.isReserved pa = false → s.isModeByte (pa + 2) = false →
      NoHostWatch s → NoSuspended s pa → BitVec.ofNat 64 ((s.counterAdd part vf pa x amount).1.peek pa 8) =
        BitVec.ofInt 64 (min ((BitVec.ofNat 64 (s.peek pa 8)).toInt + amount) (2 ^ 63 - 1))) ∧
    (Takes (.waitge g sc a b) g .scalar s → va % 8 = 0 → s.cx.ldas = [] → s.cx.ops = [] → s.poison = [] →
      isCfg p.pa = false → Reaches (.waitge g sc a b) accR.config.global [(va, 8)] s u [p] →
      (readBy s [p] < (s.getS b).toNat → exec (.waitge g sc a b) s = .next (u.notReady (.waitge g sc a b) 0x04 [])) ∧
      (¬readBy s [p] < (s.getS b).toNat → Served u [(p.pa, p.len)] 0 → Completes (.waitge g sc a b) s
        ((met s (cached s u [p]) p).acquire s.cur.core (scopeHere s sc)) s.nextPc)) ∧
    (Takes (.waita g n) g .scalar s →
      (s.arrival n.toNat = 0 → Completes (.waita g n) s s s.nextPc) ∧
      (s.arrival n.toNat ≠ 0 → exec (.waita g n) s = .next (s.notReady (.waita g n) 0x05 [])))

/-- R296 to R298: BARA sets NEED to the contexts of its sub-hoop, adds its arrival, takes its expected bytes from the
balance and returns the phase it joined; with every arrival made and the balance 0 the phase moves on and the arrivals
start again from 0. BARW completes when the phase differs from its own, else it is not ready, code 0x03. -/
def Obligations.BarrierResults : Prop :=
  ∀ (g : BitVec 4) (d a b : BitVec 6) (s u : State) (p : Part),
    let va := s.getS a
    let desc := s.getS b
    let w := s.view p.pa 8
    let need := 2 ^ (fld desc 13 11 + fld desc 16 14) * hoopN (s.core s.cur.core)
    va.toNat % 16 = 0 → isLocal p.pa = true → s.poison = [] →
    (Takes (.bara g d a b) g .scalar s → subHoopOk (s.core s.cur.core) desc = true →
      inSubHoop (s.core s.cur.core) s.cur.core desc = true → (s.getS d).toNat < 2 ^ 47 → s.protectedIn [p] = none → Quiet s →
      Reaches (.bara g d a b) accRW.global [(va.toNat, 16)] s u [p] →
      Completes (.bara g d a b) s ((u.arrive p need (s.getS d).toNat).setS d (BitVec.ofNat 64 (w / 2 ^ 48))) s.nextPc) ∧
    ((∀ j < 16, s.isReserved (p.pa + j) = false ∧ s.isProtected (p.pa + j) = false ∧ s.isModeByte (p.pa + j) = false) → NoHostWatch s → ∀ n e : Nat, e < 2 ^ 64 →
      let arr := (w / 2 ^ 32 % 2 ^ 16 + 1) % 2 ^ 16
      let bal := (s.view (p.pa + 8) 8 + 2 ^ 64 - e) % 2 ^ 64
      let met := arr = n % 2 ^ 16 ∧ n % 2 ^ 16 ≠ 0 ∧ bal = 0
      (s.arrive p n e).peek (p.pa + 8) 8 = bal ∧ (s.arrive p n e).peek p.pa 8 = w % 2 ^ 16 + n % 2 ^ 16 * 2 ^ 16 +
        (if met then (w / 2 ^ 48 % 2 ^ 16 + 1) % 2 ^ 16 * 2 ^ 48 else arr * 2 ^ 32 + w / 2 ^ 48 % 2 ^ 16 * 2 ^ 48)) ∧
    (Takes (.barw g a b) g .scalar s → s.cx.ldas = [] → s.cx.ops = [] → Reaches (.barw g a b) accR.global [(va.toNat, 16)] s u [p] →
      let phase := readBy s [p] / 2 ^ 48 % 2 ^ 16
      (phase = (s.getS b).toNat % 2 ^ 16 → exec (.barw g a b) s = .next (u.notReady (.barw g a b) 0x03 [])) ∧
      (phase ≠ (s.getS b).toNat % 2 ^ 16 → Completes (.barw g a b) s ((cached s u [p]).acquire s.cur.core 4) s.nextPc))

/-- R277, R278, R286, R287: WATCH registers its entry, its hoop's, in place of one of the same word, and latches one whose target is
already reached; with its VF's entries all in use it is not ready, code 0x15. WAKE re-inserts the contexts parked on its
word and latches the entries of the others. -/
def Obligations.WatchResults : Prop :=
  ∀ (g : BitVec 4) (m : BitVec 2) (a b : BitVec 6) (s u : State) (p : Part),
    let va := (s.getS a).toNat
    let me : Waiter := .ctx s.cur.core s.cur.ctx
    let k : WakeKey := if isLocal p.pa then ⟨s.myVf, localWin + localOff p.pa, true, localQuad p.pa⟩ else ⟨s.myVf, va, false, 0⟩
    let here := (s.core s.cur.core).hoop
    let mine := ∃ e ∈ s.hub.waits, e.waiter = me ∧ e.hoop = here ∧ e.hasKey k = true
    let room := (s.hub.waits.filter (fun e => e.vf == s.myVf)).length < (s.vf s.myVf).record.wwq
    let target : W64 := if m = 1 then s.getS b else 0
    let w := va / 8 * 8
    let loc : Bool := localWin ≤ w && w < localWin + Memory.localSize
    let key : WakeKey := ⟨s.myVf, w, loc, if loc then s.q else 0⟩
    (Takes (.watch g m a b) g .scalar s → va % 8 = 0 → s.poison = [] →
      Reaches (.watch g m a b) accR.config.global [(va, 8)] s u [p] →
      (¬mine → ¬room → exec (.watch g m a b) s = .next (u.notReady (.watch g m a b) 0x15 [])) ∧
      (mine ∨ room → Completes (.watch g m a b) s (u.modHub (fun h => { h with
        waits := h.waits.filter (fun x => !(x.waiter == me && x.hoop == here && x.hasKey k)) ++
          [{ latch := m = 1 && target.toNat ≤ s.view p.pa 8, mode := m.toNat, va := k.va, target := target, vf := s.myVf,
             waiter := me, loc := k.loc, quad := k.quad, asked := va, hoop := here }] })) s.nextPc)) ∧
    (Takes (.wake g a) g .scalar s → va < 2 ^ 56 → s.discretion (.wake g a) = 0 → Quiet s →
      Completes (.wake g a) s (s.wakeKey key) s.nextPc) ∧
    (NoHostWatch s → ∀ e ∈ s.hub.waits, e.hasKey key = true → ∀ n c, e.waiter = .ctx n c →
      (s.parkedOn e = true → ((s.wakeKey key).ctx n c).st = .ready) ∧
      (s.parkedOn e = false → { e with latch := true } ∈ (s.wakeKey key).hub.waits))

/-- The registers of a copy pass the checks of R288 and R290. -/
def copyMayStart (x : Shadow) : Prop :=
  x.src.toNat < 2 ^ 56 ∧ x.dst.toNat < 2 ^ 56 ∧ x.bytes.toNat < 2 ^ 32 ∧ x.rows.toNat ≤ 65536 ∧ x.mode.toNat < 4 ∧
    x.counter.toNat % 8 = 0 ∧ x.bytes.toNat * x.rows.toNat ≤ 2 ^ 40

/-- R288 to R295: CPSET sets a register of the context's next copy. CPGO starts a copy with those registers, CPPB with
those of its parameter block, which the transfer unit's cache then holds (R280), in the lowest free slot: S[d] receives its id, S[d+1] the promise (a free value, log 13).
With none free they are not ready, code 0x0E. CPQ reports on the copy of an id, 0 for an id in no slot. -/
def Obligations.CopyResults : Prop :=
  ∀ (g : BitVec 4) (d a : BitVec 6) (r : BitVec 3) (j : Nat) (s u : State) (ps : List Part),
    let n := s.cur.core
    let free (j : Nat) : Prop := j < 32 ∧ mapGet (s.core n).copies j = none ∧ ∀ m < j, mapGet (s.core n).copies m ≠ none
    let va := (s.getS a).toNat
    (Takes (.cpset g a r) g .scalar s →
      Completes (.cpset g a r) s (s.modCx (fun x => { x with shadow := x.shadow.set r.toNat (s.getS a) })) s.nextPc) ∧
    (Takes (.cpgo g d) g .scalar s → copyMayStart s.cx.shadow →
      ((∀ m < 32, mapGet (s.core n).copies m ≠ none) → exec (.cpgo g d) s = .next (s.notReady (.cpgo g d) 0x0E [])) ∧
      (free j → s.discretion (.cpgo g d) = 0 → Completes (.cpgo g d) s (s.startCopy d j s.cx.shadow) s.nextPc)) ∧
    (Takes (.cppb g d a) g .scalar s → va % 64 = 0 → Reaches (.cppb g d a) accR [(va, 64)] s u ps → s.cx.ldas = [] →
      s.cx.ops = [] → Served u (ps.map (fun p => (p.pa, p.len))) 0 → s.poison = [] → (∀ p ∈ ps, isCfg p.pa = false) → free j →
      let v := readBy s ps
      let x : Shadow := ⟨BitVec.ofNat 64 (v % 2 ^ 64), BitVec.ofNat 64 (v / 2 ^ 64 % 2 ^ 64), BitVec.ofNat 64 (v / 2 ^ 128 % 2 ^ 32),
        BitVec.ofNat 64 (v / 2 ^ 160 % 2 ^ 32), BitVec.ofNat 64 (v / 2 ^ 192 % 2 ^ 64), BitVec.ofNat 64 (v / 2 ^ 256 % 2 ^ 64),
        BitVec.ofNat 64 (v / 2 ^ 320 % 2 ^ 64), BitVec.ofNat 64 (v / 2 ^ 384 % 2 ^ 64)⟩
      v / 2 ^ 448 % 2 ^ 64 = 0 → copyMayStart x → Completes (.cppb g d a) s
        (((cached s u ps).keepBlock (ps.map (fun p => (p.pa, p.len)))).startCopy d j x) s.nextPc) ∧
    (Quiet s → d ≠ 0 → d ≠ 63 → ∀ x, ∃ c, mapGet ((s.startCopy d j x).core n).copies j = some c ∧ c.regs = x ∧
      c.ctx = s.cur.ctx ∧ c.vf = s.myVf ∧ c.serial = ((s.core n).serial + 1) % 2 ^ 16 ∧ c.moved = false ∧
      (s.startCopy d j x).getS d = BitVec.ofNat 64 (c.serial * 2 ^ 16 + n * 2 ^ 5 + j) ∧ (s.startCopy d j x).getS (d + 1) = c.promise) ∧
    (Takes (.cpq g d a) g .scalar s → ∃ v, WritesS (.cpq g d a) d v s ∧
      ((∀ e ∈ (s.core n).copies, e.1 < 32 → BitVec.ofNat 64 (copyId e.2.serial n e.1) ≠ s.getS a) → v = 0) ∧
      (∀ e, (s.core n).copies.find? (fun c => c.1 < 32 && BitVec.ofNat 64 (copyId c.2.serial n c.1) == s.getS a) = some e →
        v = BitVec.ofNat 64 (2 ^ 63 + (if e.2.recorded then 2 ^ 62 else 0) +
          (if e.2.promise.toNat < (s.tstamp (tileOf n)).toNat then 2 ^ 61 else 0) + e.2.done % 2 ^ 40)))

/-- R86, R87: NPUT reserves the presence bit of the neighbour's register and puts the write in flight; toward a core or
a context outside the hoop it traps with 0x0C, at a bit that is set or reserved it is not ready, code 0x02. NTAKE takes a
register whose bit is set and clears the bit, as an acquire at the scope of the NPUT that set it, if one did; else it is not ready, code 0x01. -/
def Obligations.NeighbourResults : Prop :=
  ∀ (g : BitVec 4) (t a : BitVec 6) (dir : BitVec 2) (k : BitVec 4) (v : BitVec 1) (n : Nat) (s : State),
    let i : Instr := .nput g t a dir k v
    let bit := if v = 1 then 64 + t.toNat % 32 else t.toNat
    let from' := if v = 1 then 64 + a.toNat % 32 else a.toNat
    let r : Reg := if v = 1 then .v (a.extractLsb' 0 5) else .s a
    let taken := s.presence (s.wsOf n k.toNat) bit = true ∨ s.reservedBit n k.toNat bit = true
    (Takes i g .scalar s →
      (neighbour (s.core s.cur.core) s.cur.core dir = none ∨ hoopN (s.core s.cur.core) ≤ k.toNat →
        exec i s = .next (s.raise 0x0C 0)) ∧
      (neighbour (s.core s.cur.core) s.cur.core dir = some n → k.toNat < hoopN (s.core s.cur.core) →
        (taken → exec i s = .next (s.notReady i 0x02 [])) ∧
        (¬taken → s.discretion i = 0 → Quiet s → Completes i s
          (s.modCtx n k.toNat (fun x => { x with nputs := x.nputs ++ [⟨bit, s.wsOf n k.toNat, s.regBytes r,
            ownScope s (between s.cur.core n)⟩] })) s.nextPc))) ∧
    (Takes (.ntake g t a v) g .scalar s →
      (s.presence s.ws from' = false → exec (.ntake g t a v) s = .next (s.notReady (.ntake g t a v) 0x01 [])) ∧
      (s.presence s.ws from' = true →
        let key := presenceKey s.ws from'
        let w := ((if v = 1 then s.setV (t.extractLsb' 0 5) 0xFFFFFFFF (fun j => s.getV (a.extractLsb' 0 5) j)
          else s.setS t (s.getS a)).setPresence s.ws from' false).modQuad s.q (fun q => { q with given := mapErase q.given key })
        (mapGet (s.quad s.q).given key = none → Completes (.ntake g t a v) s w s.nextPc) ∧
        (∀ x, mapGet (s.quad s.q).given key = some x → Completes (.ntake g t a v) s (w.acquire s.cur.core (ownScope s x)) s.nextPc)))

/-- R312 to R317: SEND puts a flit for the context its route names on its way, not ready, code 0x07, to a full channel;
RECV takes the head flit when it is for its context, as an acquire at the scope of its SEND, else code 0x06. PIPEPUT writes the element at TAIL and
counts it, PIPEGET reads the one at HEAD, as an acquire; a full pipe gives code 0x09, an empty one 0x08. A handler's scopes
are its tile's at least (R226). -/
def Obligations.ChannelAndPipeResults : Prop :=
  ∀ (g : BitVec 4) (d a b : BitVec 6) (c : BitVec 2) (s : State),
    let r := s.getS a
    let here := s.core s.cur.core
    let to' := coreAt (hoopOx here + fld r 5 0) (hoopOy here + fld r 12 8)
    let ch := (s.core to').chan (fld r 17 16)
    let mine := (s.core s.cur.core).chan c.toNat
    (Takes (.send g a b) g .scalar s →
      (∀ x, routeFault here r = some x → exec (.send g a b) s = .next (s.raise x 0)) ∧
      (routeFault here r = none →
        (16 ≤ ch.flits.length + ch.flight.length → exec (.send g a b) s = .next (s.notReady (.send g a b) 0x07 [])) ∧
        (ch.flits.length + ch.flight.length < 16 → s.discretion (.send g a b) = 0 → Quiet s → Completes (.send g a b) s
          (s.modChan to' (fld r 17 16) (fun x =>
            { x with flight := x.flight ++ [⟨s.getS b, if r.getLsbD 24 then 16 else fld r 23 20, s.cur.core,
              ownScope s (if to' = s.cur.core then 0 else between s.cur.core to')⟩] })) s.nextPc))) ∧
    (Takes (.recv g d c) g .scalar s →
      (mine.openTo s.cur.ctx = false → exec (.recv g d c) s = .next (s.notReady (.recv g d c) 0x06 [])) ∧
      (∀ f rest, mine.flits = f :: rest → mine.openTo s.cur.ctx = true → Completes (.recv g d c) s
        ((((s.setS d f.payload).modChan s.cur.core c.toNat (fun x => { x with flits := rest })).chanWake s.cur.core
          c.toNat).acquire s.cur.core (ownScope s f.scope)) s.nextPc)) ∧
    (∀ pa, s.pipeRecord r = some pa → Quiet s → s.poison = [] → (∀ j < 8, s.isProtected (pa + j) = false) →
      pipeWordOk (s.view (pa + 8) 8) = true →
      let w := s.view (pa + 8) 8
      let head := s.view pa 8 % 2 ^ 32
      let tail := s.view pa 8 / 2 ^ 32 % 2 ^ 32
      let size := 2 ^ (w / 2 ^ 24 % 16)
      let elem (i : Nat) : Nat := quadLocal (localQuad pa) + w / 2 ^ 3 % 2 ^ 18 * 8 + 8 * (i % size)
      (Takes (.pipeput g a b) g .scalar s →
        ((tail + 2 ^ 32 - head) % 2 ^ 32 = size → exec (.pipeput g a b) s = .next (s.notReady (.pipeput g a b) 0x09 [])) ∧
        ((tail + 2 ^ 32 - head) % 2 ^ 32 ≠ size → (∀ j < 8, s.isProtected (elem tail + j) = false) →
          Completes (.pipeput g a b) s ((s.putLocal (elem tail) (s.getS b).toNat).putLocal pa
            (head + (tail + 1) % 2 ^ 32 * 2 ^ 32)) s.nextPc)) ∧
      (Takes (.pipeget g d a) g .scalar s →
        (tail = head → exec (.pipeget g d a) s = .next (s.notReady (.pipeget g d a) 0x08 [])) ∧
        (tail ≠ head → Completes (.pipeget g d a) s
          (((s.putLocal pa ((head + 1) % 2 ^ 32 + tail * 2 ^ 32)).acquire s.cur.core 4).setS d
            (BitVec.ofNat 64 (s.view (elem head) 8))) s.nextPc)))

/-- The continuation of a PC and a mask, with the marked registers' values (R318). -/
def contHere (s : State) (pc mask : W64) : Cont :=
  ⟨pc.extractLsb' 0 14, mask &&& ~~~1, ((List.range 64).filter (fun j => (mask &&& ~~~1).getLsbD j)).map
    (fun j => s.getS (BitVec.ofNat 6 j))⟩

/-- R318 to R322, R374: TASKPUSH writes the continuation it builds into its hoop's region of the task area, last in the
queue, where it reads back as it was (in the first place that no record takes: which place is the hub's, and this one is the
model's choice, DESIGN CHOICE, log 54); SUSP reserves a place and hands it to the hub with its counter and target; a full queue
gives code 0x0B. TASKPOP goes to the oldest continuation with the registers it carries, as an acquire (in a handler in slot
0, log 23); a slot not LANDED traps with 0x06, an empty queue gives code 0x0A, a frozen one traps with 0x25. -/
def Obligations.TaskResults : Prop :=
  ∀ (g : BitVec 4) (a b : BitVec 6) (h : Nat) (x : Hoop) (s : State),
    let va := s.getS a
    let c := contHere s (s.getS b) (s.getS (b + 1))
    s.myHoop = some h → s.hoop h = some x → s.poison = [] →
    ((s.getS b).toNat < 2 ^ 14 → c.values.length ≤ 16 →
      (256 ≤ x.pushed.length + x.reserved →
        (Takes (.taskpush g b) g .scalar s → exec (.taskpush g b) s = .next (s.notReady (.taskpush g b) 0x0B [])) ∧
        (Takes (.susp g a b) g .scalar s → va.toNat < 2 ^ 56 → va.toNat % 8 = 0 →
          exec (.susp g a b) s = .next (s.notReady (.susp g a b) 0x0B []))) ∧
      (x.pushed.length + x.reserved < 256 → Quiet s →
        (Takes (.taskpush g b) g .scalar s → Completes (.taskpush g b) s ((s.modHoop h (fun y =>
          { y with frozen := if s.priv then false else y.frozen })).putCont h c) s.nextPc) ∧
        (Takes (.susp g a b) g .scalar s → va.toNat < 2 ^ 56 → va.toNat % 8 = 0 → Completes (.susp g a b) s
          ((s.modHoop h (fun y => { y with reserved := y.reserved + 1 })).modHub (fun y =>
            { y with susps := y.susps ++ [⟨h, s.cur.core, s.myVf, c, va, s.getS (a + 1), none⟩] })) s.nextPc))) ∧
    (∀ k : Cont, k.mask.getLsbD 0 = false → k.values.length ≤ 16 →
      k.values.length = ((List.range 64).filter (fun j => k.mask.getLsbD j)).length → (s.putCont h k).contAt x x.freePlace = k) ∧
    (Takes (.taskpop g) g .scalar s →
      let s' := s.modCx (fun y => { y with task := none })
      (x.frozen = true → exec (.taskpop g) s = .next (s'.raise 0x25 0)) ∧
      (x.frozen = false → x.pushed = [] → exec (.taskpop g) s = .next (s'.notReady (.taskpop g) 0x0A [])) ∧
      (∀ place rest, x.frozen = false → x.pushed = place :: rest →
        let k := s.contAt x place
        let code := (s.priv = true ∧ pcSlot k.pc = 0) ∨ s.landed s.cur.core (pcSlot k.pc) = true
        (¬code → exec (.taskpop g) s = .next (s'.raise 0x06 (k.pc.zeroExtend 64))) ∧
        (code → Completes (.taskpop g) s
          (((((s'.modHoop h (fun y => { y with pushed := rest })).carry k).modCx (fun y =>
            { y with task := some (k.pc, k.mask) }))).acquire s.cur.core 4)
          (if s.priv then BitVec.ofNat 14 (k.pc.toNat % 1024) else k.pc))))


/-! The hub and the handlers (chapters 17, 18 and 20). -/

/-- R311, R327 to R330: LAUNCH puts a record that the hub accepts at the end of its queue; a full queue gives code 0x0C, a
wrong queue or record traps with 0x28. SYSC.NB hands its call and S[b] to S[b+3] to the host in the context's slot, SYSC
takes the results and frees the slot; JRNL shows a journal entry and frees its own refused one. -/
def Obligations.HostCallResults : Prop :=
  ∀ (g : BitVec 4) (d a b : BitVec 6) (s u : State) (ps : List Part),
    let x := s.getS a
    let q := (s.getS b).toNat
    let v := readBy s ps
    let e := (s.core s.cur.core).entry x.toNat
    (Takes (.launch g a b) g .scalar s → x.toNat % 64 = 0 →
      ((8 ≤ q ∨ s.queue s.myVf q = none) → exec (.launch g a b) s = .next (s.raise 0x28 0)) ∧
      (∀ l, q < 8 → s.queue s.myVf q = some l → Reaches (.launch g a b) accR [(x.toNat, 64)] s u ps →
        (64 ≤ l.count → exec (.launch g a b) s = .next (u.notReady (.launch g a b) 0x0C [])) ∧
        (l.count < 64 → Quiet s → s.poison = [] → Served u (ps.map (fun p => (p.pa, p.len))) 0 → (∀ p ∈ ps, isCfg p.pa = false) →
          let ok := s.launchOk v = true ∧ (launchOf v).queue = q ∧ (launchOf v).vf = s.myVf
          (¬ok → exec (.launch g a b) s = .next (u.raise 0x28 0)) ∧
          (ok → Completes (.launch g a b) s ((cached s u ps).enqueue (launchOf v)) s.nextPc)))) ∧
    (s.callSlot = none → (Takes (.syscNb g a b) g .scalar s → exec (.syscNb g a b) s = .next (s.raise 0x26 0)) ∧
      (Takes (.sysc g d) g .scalar s → exec (.sysc g d) s = .next (s.raise 0x26 0))) ∧
    (∀ va pa, s.callSlot = some (va, pa) → s.poison = [] → Quiet s →
      let st := s.view pa 8
      let args := (List.range 4).flatMap (fun j => toLE 8 (s.getS (b + BitVec.ofNat 6 j)).toNat)
      let word := (st / 2 ^ 32 % 2 ^ 32 + 1) % 2 ^ 32 * 2 ^ 32 + x.toNat / 2 ^ 63 * 4 + 1
      (Takes (.syscNb g a b) g .scalar s → x.toNat / 2 ^ 32 % 2 ^ 31 = 0 →
        (st % 4 = 1 → exec (.syscNb g a b) s = .next (s.notReady (.syscNb g a b) 0x16 [])) ∧
        (st % 4 = 0 → Completes (.syscNb g a b) s
          ((s.performSegs (tileOf s.cur.core) s.myVf [⟨pa, va, toLE 8 word ++ toLE 8 x.toNat ++ args⟩]).wakeKey ⟨s.myVf, va, false, 0⟩) s.nextPc)) ∧
      (Takes (.sysc g d) g .scalar s →
        (st % 4 = 3 → Completes (.sysc g d) s
          (((((s.setS d (BitVec.ofNat 64 (s.view (pa + 0x30) 8))).setS (d + 1) (BitVec.ofNat 64 (s.view (pa + 0x38) 8)))).performSegs
            (tileOf s.cur.core) s.myVf [⟨pa, va, toLE 8 (st / 8 * 8)⟩]).acquire s.cur.core 4) s.nextPc) ∧
        (st % 4 = 2 ∨ st % 8 = 5 → exec (.sysc g d) s = .next (s.notReady (.sysc g d) 0x17 [])) ∧
        (st % 4 = 0 ∨ st % 8 = 1 → exec (.sysc g d) s = .next (s.raise 0x26 0)))) ∧
    (Takes (.jrnl g d a) g .scalar s →
      (31 < x.toNat → exec (.jrnl g d a) s = .next (s.raise 0x27 0)) ∧
      (x.toNat ≤ 31 →
        let w := (s.setS d (BitVec.ofNat 64 e.word)).setS (d + 1) (if e.state = .free then 0 else e.va)
        Completes (.jrnl g d a) s (if e.state = .refused ∧ e.owner = s.cur.ctx then
          w.modEntry s.cur.core x.toNat (fun _ => JEntry.free) else w) s.nextPc))

/-- R332, R333, R335, R336: a trap of a context that is neither in a handler nor stepped nor running a task saves PC,
workspace and value, sets CAUSE, ASYNC, PRIV and PK in FLAGS and takes the context to its handler. TRAP and DBGBRK without
a debugger do so with the next word's PC; under a debugger DBGBRK stops its context. A trap in a handler stops the
context. -/
def Obligations.TrapEntryResults : Prop :=
  ∀ (g : BitVec 4) (c : BitVec 6) (cause : BitVec 6) (tval : W64) (s : State), s.flags.getLsbD 22 = false →
    (s.priv = false →
      (s.cx.task = none → Entered s (s.raise cause tval) cause tval s.cx.pc) ∧
      (Takes (.trap g c) g .scalar s →
        ∃ t, exec (.trap g c) s = .next t ∧ Entered s t 0x09 (c.zeroExtend 64) s.nextPc) ∧
      (Takes (.dbgbrk g) g .scalar s → s.debugged s.cur.core = false →
        ∃ t, exec (.dbgbrk g) s = .next t ∧ Entered s t 0x0A 0 s.nextPc)) ∧
    (Takes (.dbgbrk g) g .scalar s → s.debugged s.cur.core = true → s.cx.st = .ready →
      ∃ t, exec (.dbgbrk g) s = .next t ∧ t.cx.st = .stopped ∧ t.cx.stopDebug = true ∧ t.cx.prior = .ready ∧
        t.cx.pc = s.nextPc ∧ ∀ x, t.byte x = s.byte x) ∧
    (s.priv = true → (s.raise cause tval).cx.st = .stopped ∧ (s.raise cause tval).cx.stopTrap = true ∧
      ((s.raise cause tval).tile (tileOf s.cur.core)).away = (s.tile (tileOf s.cur.core)).away.filter
        (fun x => x != (s.cur.core, s.cur.ctx)))

/-- R337, R338: TRET, in a handler, returns its context READY to TPC in the workspace TWSP, with PRIV and PK clear, and
off its tile's service list; WSPSW, outside a handler, goes to a PC in another workspace and takes FLAGS along (log 24).
Accesses of the context to the bytes of a workspace that it enters are performed first (log 9); here none is in flight.
Each traps with 0x03 in the other mode, with 0x06 for a slot that is not LANDED, with 0x0E for a workspace that the test
refuses, WSPSW with 0x05 for a value of more than 14 bits; the traps of a TRET in a handler are nested ones, which stop the
context. -/
def Obligations.HandlerReturnResults : Prop :=
  ∀ (g : BitVec 4) (a b : BitVec 6) (s : State),
    let p := s.tpc % 2 ^ 14
    let w := s.getS a
    let v := s.getS b
    (Takes (.tret g) g .scalar s →
      (s.priv = false → exec (.tret g) s = .next (s.raise 0x03 0)) ∧
      (s.priv = true → ((s.core s.cur.core).slot (p / 1024)).state = .landed → s.workspaceOk s.twsp = true →
        (s.twsp = s.cx.wsp.toNat ∨ s.item 0x1220 8 = 0) → (s.twsp = s.cx.wsp.toNat ∨ Quiet s) →
        Completes (.tret g) s ((((s.modCx (fun x => { x with st := .ready, wsp := BitVec.ofNat 32 s.twsp })).setFlags
          (s.flags &&& ~~~0xA00000))).leaveService s.cur.core s.cur.ctx) (BitVec.ofNat 14 p)) ∧
      (∀ c y, s.priv = true → (((s.core s.cur.core).slot (p / 1024)).state ≠ .landed ∧ c = 0x06 ∧ y = p ∨
          ((s.core s.cur.core).slot (p / 1024)).state = .landed ∧ c = 0x0E ∧ y = s.twsp ∧
            (s.workspaceOk s.twsp = false ∨ (s.twsp ≠ s.cx.wsp.toNat ∧ s.item 0x1220 8 ≠ 0))) →
        exec (.tret g) s = .next (s.raise c (BitVec.ofNat 64 y)) ∧ (s.raise c (BitVec.ofNat 64 y)).cx.st = .stopped ∧
          (s.raise c (BitVec.ofNat 64 y)).cx.stopTrap = true)) ∧
    (Takes (.wspsw g a b) g .scalar s →
      (s.priv = true → exec (.wspsw g a b) s = .next (s.raise 0x03 0)) ∧
      (s.priv = false → (s.workspaceOk w.toNat = false ∨ s.item 0x1220 8 ≠ 0) →
        exec (.wspsw g a b) s = .next (s.raise 0x0E w)) ∧
      (s.priv = false → s.workspaceOk w.toNat = true → s.item 0x1220 8 = 0 → 2 ^ 14 ≤ v.toNat →
        exec (.wspsw g a b) s = .next (s.raise 0x05 v)) ∧
      (s.priv = false → s.workspaceOk w.toNat = true → s.item 0x1220 8 = 0 → v.toNat < 2 ^ 14 →
        ((s.core s.cur.core).slot (v.toNat / 1024)).state ≠ .landed → exec (.wspsw g a b) s = .next (s.raise 0x06 v)) ∧
      (s.priv = false → s.workspaceOk w.toNat = true → s.item 0x1220 8 = 0 → v.toNat < 2 ^ 14 →
        ((s.core s.cur.core).slot (v.toNat / 1024)).state = .landed → Quiet s →
        Completes (.wspsw g a b) s ((s.modCx (fun x => { x with wsp := w.extractLsb' 0 32 })).setFlags s.flags)
          (v.extractLsb' 0 14)))

/-- R89 to R91: MOVC reads a control register, in which bits that the manual does not list read zero. That a handler reads
CORE, QUAD, TILE, HOOPO, HOOPS and OPPT of the core and quad of its AWAY context is the model's choice (DESIGN CHOICE, log
65). MOVCW writes one: a number it may not write traps with 0x01, a protected one in user mode with 0x03, a reserved bit
with 0x02; FLAGS.FX is cleared where ones are written, and in user mode nothing else of FLAGS changes; in a handler FLAGS
keeps PRIV and PK, CAUSE writes its two fields of FLAGS, and TVAL, TPC, TWSP and NRCNT take the value. Every byte but the
register's own stays. -/
def Obligations.ControlRegisterResults : Prop :=
  ∀ (g : BitVec 4) (d c b : BitVec 6) (s : State),
    let v := s.getS b
    let n := c.toNat
    let word : W64 := (encode (.movcw g c b)).zeroExtend 64
    let here := s.cur.core
    let mv := (s.tile (tileOf here)).railMv
    let item : Nat × Nat := if n ≤ 11 then (0x1240, 8) else if n = 12 then (0x1278, 8) else if n = 13 then (0x1270, 4)
      else if n = 14 then (0x1274, 4) else if n = 15 then (0x121C, 4) else if n = 17 then (0x1238, 8) else (0x1250 + 8 * (n - 18), 8)
    (Takes (.movc g d c) g .scalar s → WritesS (.movc g d c) d (s.control n) s) ∧
    (∀ r ∈ ([(0, s.cx.wsp.toNat / 2 ^ 10 % 2 ^ 11 * 2 ^ 10), (1, s.cur.ctx), (2, coreY here * 2 ^ 24 + coreX here * 2 ^ 16 + here),
        (3, (4 * (coreY here / 2 % 2) + coreX here / 2 % 4) * 2 ^ 16 + quadOf here),
        (4, (coreX here / 32 + 2 * (coreY here / 12)) * 2 ^ 16 + (4 * (coreY here / 4 % 3) + coreX here / 8 % 4) * 2 ^ 8 + tileOf here),
        (5, (s.core here).hoopO.toNat), (6, (s.core here).hoopS.toNat), (7, s.myVf),
        (8, s.hub.now + (Config.tileSkew (tileOf here)).val),
        (9, if s.priv then (s.tile (tileOf here)).cyc else (s.core here).cyc),
        (10, ((s.flags &&& 0xBF60001F) ||| (if s.priv then 0x800000 else 0)).toNat),
        (11, s.flags.toNat / 2 ^ 31 % 2 * 128 + s.flags.toNat / 2 ^ 24 % 64),
        (12, s.peek (s.ws + 0x1278) 8), (13, s.peek (s.ws + 0x1270) 4 % 2 ^ 14),
        (14, s.peek (s.ws + 0x1274) 4 / 2 ^ 10 % 2 ^ 11 * 2 ^ 10),
        (15, s.peek (s.ws + 0x121C) 4), (16, s.peek (s.ws + 0x1234) 4 % 2 ^ 7), (17, s.peek (s.ws + 0x1238) 8 % 8),
        (18, s.peek (s.ws + 0x1250) 8 % 2 ^ 17), (19, s.peek (s.ws + 0x1258) 8 % 2 ^ 17),
        (20, s.peek (s.ws + 0x1260) 8 % 2 ^ 17), (21, s.peek (s.ws + 0x1268) 8 % 2 ^ 17),
        (22, (if s.hub.meltRfz then 2 ^ 16 else 0) + min (s.hub.vat * 65536 / 2 ^ 24) 0xFFFF),
        (26, (([480, 515, 550, 600, 650] : List Nat).filter (fun x => x < mv)).length * 2 ^ 8 + (s.quad s.q).point),
        (27, 0x00007FFFFFC00000), (23, (s.quad s.q).lease.toNat), (24, (s.quad s.q).leaseEnd.toNat),
        (25, (s.quad s.q).fduty), (28, s.peek (s.ws + 0x1248) 8 / 2 ^ 32 % 2 ^ 14 * 2 ^ 32 + s.peek (s.ws + 0x1248) 8 % 2 ^ 14)] : List (Nat × Nat)), s.control r.1 = BitVec.ofNat 64 r.2) ∧
    (Takes (.movcw g c b) g .scalar s →
      let writable := (10 ≤ n ∧ n ≤ 15) ∨ (17 ≤ n ∧ n ≤ 21)
      let mine := (11 ≤ n ∧ n ≤ 15) ∨ (n = 10 ∧ 32 ≤ v.toNat)
      (¬writable → exec (.movcw g c b) s = .next (s.raise 0x01 word)) ∧
      (writable → s.priv = false → mine → exec (.movcw g c b) s = .next (s.raise 0x03 0)) ∧
      (writable → (s.priv = true ∨ ¬mine) →
        (ctlReserved n v = true → exec (.movcw g c b) s = .next (s.raise 0x02 word)) ∧
        (ctlReserved n v = false → Completes (.movcw g c b) s (s.writeControl n v) s.nextPc ∧
          (n = 10 → s.priv = false → (s.writeControl n v).flags = s.flags &&& ~~~(v &&& 0x1F)) ∧
          (n = 10 → s.priv = true → (s.writeControl n v).flags =
            (s.flags &&& 0xA00000) ||| (v &&& 0xBF400000) ||| (s.flags &&& ~~~v &&& 0x1F)) ∧
          (n = 11 → (s.writeControl n v).flags = (s.flags &&& ~~~(0xBF000000 : W64)) ||| ((v &&& 0x80) <<< 24) ||| ((v &&& 0x3F) <<< 24)) ∧
          (n = 12 → (s.writeControl n v).tval = v.toNat) ∧ (n = 13 → (s.writeControl n v).tpc = v.toNat) ∧
          (n = 14 → (s.writeControl n v).twsp = v.toNat) ∧ (n = 15 → (s.writeControl n v).nrcnt = v.toNat) ∧
          (n = 17 → (s.writeControl n v).peek (s.ws + 0x1238) 8 = v.toNat) ∧
          (∀ x, ¬inItem s item.1 item.2 x → (s.writeControl n v).byte x = s.byte x) ∧
          (∀ j < 4, n = 18 + j → (s.writeControl n v).peek (s.ws + 0x1250 + 8 * j) 8 = v.toNat))))

/-- R90, R272 to R275: CULTLD, RANGESET and TLBINV trap with 0x03 outside a handler. In one, with words that their checks
pass and no other operation in the way, each puts its operation in flight; CULTLD also marks its slot LOADING, RANGESET its entry, which its lines then leave one
by one (R274). -/
def Obligations.TableResults : Prop :=
  ∀ (g : BitVec 4) (a b : BitVec 6) (s u : State) (ps : List Part),
    let va := s.getS a
    let k := (s.getS b).toNat
    let w0 := s.getS b
    let w1 := s.getS (b + 1)
    let d := s.getS b
    (∀ i ∈ ([.cultld g a b, .rangeset g a b, .tlbinv g a b] : List Instr),
      Takes i g .scalar s → s.priv = false → exec i s = .next (s.raise 0x03 0)) ∧
    (s.priv = true →
      (Takes (.cultld g a b) g .scalar s → 7 ≤ k → k < 16 → va.toNat % 64 = 0 →
        (∀ c, mapGet s.hub.cultures k = some c → c.state ≠ .loading ∧ (c.state = .loaded → c.owner = s.myVf)) →
        Reaches (.cultld g a b) accR (splitPages va.toNat 1088) s u ps → Quiet s →
        (∀ e ∈ s.rangeWords, e.2.1.getLsbD 63 = true → fld e.2.1 55 52 ≠ k) →
        let c : Culture := { state := .loading, owner := s.myVf, ns := 0, name := 0, states := [], actions := [] }
        Completes (.cultld g a b) s ((u.modHub (fun h => { h with cultures := mapSet h.cultures k c })).modCx (fun x =>
          { x with ops := x.ops ++ [.cultld k (ps.map (fun p => (p.pa, p.len))) true] })) s.nextPc) ∧
      (Takes (.rangeset g a b) g .scalar s → va.toNat < 256 → ∀ y, mapGet s.hub.ranges va.toNat = some y → y.vf = some s.myVf →
        rangeReserved w0 w1 = false → (w0.getLsbD 63 = true → fld w0 8 0 = s.myVf ∧ fld w0 51 12 ≤ fld w1 51 12 ∧
          rangeInside (fld w0 51 12) (fld w1 51 12) = true ∧ s.culturable s.myVf (fld w0 55 52) = true ∧
          ∀ r ∈ s.rangeWords, r.1 ≠ va.toNat → r.2.1.getLsbD 63 = true →
            fld w1 51 12 < fld r.2.1 51 12 ∨ fld r.2.2 51 12 < fld w0 51 12) →
        (∀ c ∈ s.allCtxs, ∀ o ∈ c.2.2.ops, ∀ p q, o ≠ .rangeset va.toNat p q) →
        let asked := { y with next := some (w0, w1), moved := [] }
        Completes (.rangeset g a b) s ((s.modHub (fun h => { h with ranges := mapSet h.ranges va.toNat asked })).modCx (fun x =>
          { x with ops := x.ops ++ [.rangeset va.toNat w0 w1] })) s.nextPc) ∧
      (Takes (.tlbinv g a b) g .scalar s → d.toNat < 16 → d.toNat % 4 < 2 → (∀ o ∈ s.cx.ops, o.isTlbinv = false) →
        (d.getLsbD 2 = false → Completes (.tlbinv g a b) s (s.modCx (fun x => { x with ops := x.ops ++
          [.tlbinv s.myVf (d.toNat % 4 = 1) false (d.getLsbD 3) va none] })) s.nextPc) ∧
        (∀ e, d.getLsbD 2 = true → d.toNat % 4 = 0 → walksFor va.toNat = true →
          Reaches (.tlbinv g a b) accR [(va.toNat, 1)] s u ps → (u.lookup u.me va.toNat).2 = .leaf e →
          Completes (.tlbinv g a b) s (u.modCx (fun x => { x with ops := x.ops ++
            [.tlbinv s.myVf false true (d.getLsbD 3) va (some (e.frame, e.size))] })) s.nextPc)))

/-- R356 to R359: SPRINT, where its VF may sprint, the vat is not refreezing, the quad has no lease and neither amount is
0, writes the quad's lease: E, VALID and the next id, LEASEEND D microseconds on, and an event record; else it is not
ready, code 0x0F. UNSPRINT ends the quad's lease. Neither traps on a poisoned register: a poisoned source is a free value,
under a poisoned guard a free bit says whether the instruction executes, and a SPRINT whose VF may not sprint is then not
ready all the same (the model's inference from R357 and R358, DEDUCED, log 50). -/
def Obligations.SprintResults : Prop :=
  ∀ (g : BitVec 4) (a b : BitVec 6) (s : State),
    let e := min (s.getS a).toNat 0xFFFFFFFF
    let d := min (s.getS b).toNat 1000000
    let may := (s.vf s.myVf).sprint = true ∧ s.hub.meltRfz = false ∧ e ≠ 0 ∧ d ≠ 0 ∧ (s.quad s.q).leased = false
    let id := s.hub.leaseId
    let stop := s.tstamp (tileOf s.cur.core) + BitVec.ofNat 64 (1000 * d)
    (Takes (.sprint g a b) g .scalar s →
      (¬may → exec (.sprint g a b) s = .next (s.notReady (.sprint g a b) 0x0F [])) ∧
      (may → Completes (.sprint g a b) s
        (((s.modHub (fun h => { h with leaseId := if id = 0xFFFF then 1 else id + 1 })).modQuad s.q (fun x =>
          { x with lease := BitVec.ofNat 64 (e * 2 ^ 32 + 2 ^ 31 + id), leaseEnd := stop, acc2 := e * 1024000, used := 0,
                   holder := (s.core s.cur.core).hoop.map (fun h => ⟨s.cur.core, s.cur.ctx, h⟩) })).quadEvent s.q 0x12
          (toLE 2 id ++ toLE 2 0 ++ toLE 4 e ++ toLE 8 stop.toNat ++ toLE 2 s.cur.core ++ toLE 1 s.cur.ctx)) s.nextPc)) ∧
    (Takes (.unsprint g) g .scalar s → Completes (.unsprint g) s (s.endLease s.q 0) s.nextPc) ∧
    ((s.quad s.q).leased = true → ((s.endLease s.q 0).quad s.q).leased = false) ∧
    (let guardBad := g ≠ 15 ∧ g ≠ 7 ∧ (s.regPoison (guardReg g)).isSome = true
     let idles (i : Instr) : Prop := ∃ t, exec i s = .next t ∧ t.cx.pc = s.nextPc ∧ t.choices = s.choices ∧
       Framed { s with draws := t.draws } t (fun _ => False)
     let waits (i : Instr) : Prop := ∃ m, exec i s = .next (({ s with draws := m } : State).notReady i 0x0F [])
     ((Instr.sprint g a b).accepts s.cx.chain = true → (s.vf s.myVf).sprint = false →
       (guardBad → waits (.sprint g a b) ∨ idles (.sprint g a b)) ∧
       (g ≠ 15 → (g = 7 ∨ s.regPoison (guardReg g) = none) → s.holds g = true → (s.readPoison (.sprint g a b)).isSome = true →
         waits (.sprint g a b))) ∧
     ((Instr.unsprint g).accepts s.cx.chain = true → guardBad → (s.quad s.q).leased = false → idles (.unsprint g)))

/-- R33, R36, R69, R88: a not-ready outcome of the issuing context writes P6 with zeros, counts NRCNT up, sets NRCODE and
NRPC to its code and to the PCs of the word and of the target, goes to the ONNR's target, or to the next word, and leaves
every other byte. -/
def Obligations.NotReadyReport : Prop :=
  ∀ (i : Instr) (code : Nat) (lines : List Nat) (s : State), code < 2 ^ 32 →
    let t := s.notReady i code lines
    let target := (s.onnr).getD s.nextPc
    t.getP 6 = 0 ∧ t.nrcnt = (s.nrcnt + 1) % 2 ^ 32 ∧ t.item 0x1234 4 = code ∧
      t.item 0x1248 8 = target.toNat * 2 ^ 32 + s.wordPc.toNat ∧ t.cx.pc = target ∧ t.cx.chain = [] ∧
      (∀ x, ¬inP s 6 x → ¬inItem s 0x121C 4 x → ¬inItem s 0x1234 4 x → ¬inItem s 0x1248 8 x → t.byte x = s.byte x) ∧
      (∀ n k, ¬(n = s.cur.core ∧ k = s.cur.ctx) → t.ctx n k = s.ctx n k) ∧ t.hub = s.hub

/-! The matrix unit (chapter 9). -/

/-- R173, R175, R176: MXMUL, MXMULS, MXRD, MXWR and MXZERO, with a valid window, operands that their checks pass and no
row group of the window owned, accept their operation, the context's earlier accesses performed; the head command of the
inbox whose groups were free has then lost a tie, and one that has lost 8 in a row comes before them (R165); a wrong
descriptor traps with 0x22, an owned group, or such a command, gives code 0x10. -/
def Obligations.MatrixOperationResults : Prop :=
  ∀ (g : BitVec 4) (d a b : BitVec 6) (w : Window) (x y x0 y0 : Operand) (s u v : State),
    let op (kind : MxKind) (p q : Option Operand) (rm : Nat) : MxOp :=
      { kind := kind, win := w, a := p, b := q, sc := s.mxsc w.sc, rm := if rm = 5 then 1 else rm,
        prog := if kind = .mul ∨ kind = .muls then (s.quad s.q).prog else none,
        source := .ctx s.cur.core s.cur.ctx, vf := s.myVf, tag := s.myTag, old := [] }
    let held : Bool := (s.quad s.q).busy w || (8 ≤ (s.quad s.q).ties && (s.quad s.q).losesTo w)
    let accept (t : State) (o : MxOp) : State := (t.modQuad s.q (fun q => { q with tied := q.tied || q.losesTo o.win })).acceptOp s.q o
    (∀ r ∈ ([(.mxmul g d a b, MxKind.mul), (.mxmuls g d a b, MxKind.muls)] : List (Instr × MxKind)), Takes r.1 g .scalar s →
      (mxWindow (s.getS d) true = none → exec r.1 s = .next (s.raise 0x22 0)) ∧
      (mxWindow (s.getS d) true = some w → s.operand s.q (s.getS a) w.m w.k = .ok x0 → s.operand s.q (s.getS b) w.n w.k = .ok y0 →
        s.withScales s.me x0 = (u, .ok x) → u.withScales s.me y0 = (v, .ok y) →
        (held = true → exec r.1 s = .next (v.notReady r.1 0x10 [])) ∧
        (held = false → s.discretion r.1 = 0 → Quiet s →
          Completes r.1 s (accept v (op r.2 (some x) (some y) s.rm)) s.nextPc))) ∧
    (∀ r ∈ ([(.mxrd g d a, MxKind.rd), (.mxwr g d a, MxKind.wr)] : List (Instr × MxKind)), Takes r.1 g .scalar s →
      (mxWindow (s.getS d) false = none → exec r.1 s = .next (s.raise 0x22 0)) ∧
      (mxWindow (s.getS d) false = some w → s.localOperand s.q (s.getS a).toNat w.m w.n true = .ok x0 →
        s.withScales s.me x0 = (u, .ok x) →
        (held = true → exec r.1 s = .next (u.notReady r.1 0x10 [])) ∧
        (held = false → s.discretion r.1 = 0 → Quiet s →
          Completes r.1 s (accept u (op r.2 (some x) none s.roundMode)) s.nextPc))) ∧
    (Takes (.mxzero g d) g .scalar s →
      (mxWindow (s.getS d) false = none → exec (.mxzero g d) s = .next (s.raise 0x22 0)) ∧
      (mxWindow (s.getS d) false = some w →
        (held = true → exec (.mxzero g d) s = .next (s.notReady (.mxzero g d) 0x10 [])) ∧
        (held = false → s.discretion (.mxzero g d) = 0 → Quiet s →
          Completes (.mxzero g d) s (accept s (op .zero none none 1)) s.nextPc)))

/-- R171, R172, R174, R177 to R183: the other matrix instructions. MXFETCH points a slot at its rows, each page translated,
where the homes of their lines serve it (R398);
MXDRAIN completes when no named row group is owned, as an acquire; MXPROG and MXDEF set and clear the inner-loop buffer,
while no operation in flight holds it; MXSCL, MXSTAT and MXCLR write, read and clear; MXCAP grants rows under a random
check value; MXCMD sends its command on its way. -/
def Obligations.MatrixControlResults : Prop :=
  ∀ (g : BitVec 4) (d a b : BitVec 6) (f : Fetched) (m : Map Nat) (s u v : State),
    let x := s.getS a
    let y := s.getS b
    let qd := s.quad s.q
    let at' := f.attrs.headD ⟨1, false, false, 0, 0⟩
    let k := fld y 57 56
    let bytes := (fld y 22 16 + 1) * fld y 15 0
    let op := fld x 63 60
    let regs := commandRegs op a
    let used (r : BitVec 6) : W64 := if regs.contains r then s.getS r else 0
    (Takes (.mxfetch g a b) g .scalar s → fld y 63 58 = 0 → fld y 31 23 = 0 → 0 < fld y 15 0 → bytes ≤ 65536 →
      s.fetchPages s.me (fetchPieces x y) = (u, .ok f) →
      u.scalePages s.me (f.lowest (fetchPieces x y)) = (v, .ok m) → f.tr = false →
      fld y 15 0 % fmtBytes at'.fmt = 0 → at'.fmt ≠ 0 → (∀ z ∈ f.attrs, z.agrees at' = true) → s.discretion (.mxfetch g a b) = 0 →
      (qd.slotInUse k = true → exec (.mxfetch g a b) s = .next (v.notReady (.mxfetch g a b) 0x10 [])) ∧
      (qd.slotInUse k = false →
        bytes + s.pinnedOthers (tileOfQuad s.q) s.q k + (s.tile (tileOfQuad s.q)).pinBusy ≤ 0x200000 → Quiet s →
        v.askBusy (tileOfQuad s.q) ((f.lines (fetchPieces x y) m).map (fun l => (64 * l, 64))) 0 = false →
        let slot : FetchSlot := ⟨x, y, at', f.pages, m, false, false, true⟩
        Completes (.mxfetch g a b) s ((v.unpin s.q k).modQuad s.q (fun z => { z with slots := mapSet z.slots k slot })) s.nextPc)) ∧
    (Takes (.mxdrain g a) g .scalar s → x.toNat < 2 ^ 32 →
      let held := ∃ n < 32, x.getLsbD n = true ∧
        (qd.owns n = true ∨ ∃ c ∈ qd.inbox, ∃ w, c.window = some w ∧ w.touches n = true)
      (held → exec (.mxdrain g a) s = .next (s.notReady (.mxdrain g a) 0x10 [])) ∧
      (¬held → s.discretion (.mxdrain g a) = 0 → Completes (.mxdrain g a) s (s.acquire s.cur.core (ownScope s 1)) s.nextPc)) ∧
    (Takes (.mxprog g a b) g .scalar s → y.toNat < 2 ^ 34 → x.toNat < 2 ^ (16 * (fld y 33 32 + 1)) →
      (∀ j ≤ fld y 33 32, stepOk x j = true) →
      (qd.bufferBusy = true → exec (.mxprog g a b) s = .next (s.notReady (.mxprog g a b) 0x11 [])) ∧
      (qd.bufferBusy = false → Completes (.mxprog g a b) s
        (s.modQuad s.q (fun z => { z with prog := some ⟨x, y.extractLsb' 0 32, fld y 33 32 + 1⟩ })) s.nextPc)) ∧
    (Takes (.mxdef g) g .scalar s →
      (qd.bufferBusy = true → exec (.mxdef g) s = .next (s.notReady (.mxdef g) 0x11 [])) ∧
      (qd.bufferBusy = false → Completes (.mxdef g) s (s.modQuad s.q (fun z => { z with prog := none })) s.nextPc)) ∧
    (Takes (.mxscl g a) g .scalar s →
      (2 ^ 48 ≤ x.toNat → exec (.mxscl g a) s = .next (s.raise 0x22 0)) ∧
      (x.toNat < 2 ^ 48 → Completes (.mxscl g a) s (s.modQuad s.q (fun z => { z with thresh := x })) s.nextPc)) ∧
    (Takes (.mxstat g d) g .scalar s → WritesS (.mxstat g d) d qd.status s) ∧
    (Takes (.mxclr g) g .scalar s → Completes (.mxclr g) s (s.modQuad s.q (fun z => { z with status := 0 })) s.nextPc) ∧
    (Takes (.mxcap g d a b) g .scalar s → x.toNat < 2 ^ 57 → fld x 47 41 = 0 → fld x 31 26 = 0 → fld x 15 3 = 0 →
      fld x 56 48 ≤ 383 → 0 < fld x 25 16 → fld x 40 32 + fld x 25 16 ≤ 512 →
      (fld x 56 48 ≠ s.myVf → s.priv = false → exec (.mxcap g d a b) s = .next (s.raise 0x03 0)) ∧
      (fld x 56 48 = s.myVf ∨ s.priv = true → ∃ r : BitVec 43, Completes (.mxcap g d a b) s
        ((({ s with draws := s.draws + 1 } : State).modQuad s.q (fun z =>
          { z with caps := mapSet z.caps (fld x 2 0) ⟨fld x 56 48, fld x 40 32, fld x 25 16, y, r⟩ })).setS d
            (BitVec.ofNat 64 (s.q * 2 ^ 46 + fld x 2 0 * 2 ^ 43 + r.toNat))) s.nextPc)) ∧
    (Takes (.mxcmd g d a) g .scalar s → a.toNat ≤ 60 → (s.getS d).toNat < 2 ^ 55 →
      (op = 0 ∨ op = 1 ∨ op = 6 ∨ op = 7 ∨ op = 8) → fld x 59 56 = 0 → fld x 2 0 = 0 → s.poison = [] →
      s.commandsFor (fld (s.getS d) 54 46) < 4 → s.discretion (.mxcmd g d a) = 0 → Quiet s →
      Completes (.mxcmd g d a) s (s.modHub (fun h => { h with commands := h.commands ++
        [{ token := s.getS d, vf := s.myVf, tag := s.myTag, core := s.cur.core, ctx := s.cur.ctx, hoop := s.myHoop, live := true, word := x,
           w := used (a + 1), a := used (a + 2), b := used (a + 3), sc := s.mxsc (fld (used (a + 1)) 49 48),
           rm := if (if op ≤ 1 then s.rm else s.roundMode) = 5 then 1 else if op ≤ 1 then s.rm else s.roundMode }] })) s.nextPc)


/-! Decoding, one step, and the machine after reset. -/

/-- R58 to R76: the encoder and the decoder agree. The word of a well-formed instruction decodes to it, and a word that
decodes to an instruction is that instruction's word. -/
def Obligations.DecodeAndEncodeAgree : Prop :=
  (∀ i : Instr, i.isEvent = false → i.wellFormed = true → decode (encode i) = .ok i) ∧
  (∀ (w : W32) (i : Instr), decode w = .ok i → encode i = w ∧ i.wellFormed = true ∧ i.isEvent = false)

/-- R60 to R75: words written out from the encodings of the manual (the first eight are its worked encodings) decode to the
instructions they stand for; of its words that are none, one has an unassigned selector, one an unassigned major, and one
a reserved bit set. -/
def Obligations.ManualWordsDecode : Prop :=
  (∀ r ∈ ([
    (0x11C30420, .add 7 3 1 2), (0x12440421, .sub 9 4 1 2), (0x31CA0422, .cmp 7 1 2 1 2 2),
      (0x00100000, .imm 0x100000), (0x1DC20000, .movi 7 2 0), (0x04000000, .onnr 0), (0xA1C40B00, .ld 7 4 2 6 0),
      (0xA1CB0E01, .ld 7 11 3 4 1), (0x13C00000, .nop), (0x15C4146F, .lea 7 4 5 6 3), (0x19C1083D, .sel 7 1 2 3 1 5),
      (0x1DC103F9, .movi 7 1 0x3F9), (0x2DC30E07, .sari 7 3 3 7), (0x39C80832, .pxor 7 1 2 3),
      (0x41FFFFFE, .jmp 0x3FFFFE), (0x40400010, .br 1 16), (0x49C903FC, .loop 7 9 0x3FC), (0x4DC0FC02, .ret 7 63),
      (0x4DCA0007, .parkNbV 7 5), (0x50461080, .vadd 1 3 1 1), (0x51C221AA, .vmin 7 1 2 3 1),
      (0x51C21112, .vcmp 7 1 1 2 2), (0x55C92002, .vredAdd 7 9 4), (0x59C85303, .vfma 7 4 5 6),
      (0x5DC228E6, .vpack 7 1 2 0x23 2), (0x61C30420, .fadd 7 3 1 2), (0x81C10830, .mxmul 7 1 2 3),
      (0xA5C40B7F, .st 7 4 2 3 0x7F), (0xA9C40A83, .lda 7 4 2 2 1 3), (0xC5C40869, .amo 1 7 4 2 6 9),
      (0xD1C41460, .tladd 7 4 5 6), (0xD5C01406, .cpset 7 5 6), (0xE1C31258, .nput 7 3 4 2 5 1),
      (0xE5C00420, .send 7 1 2), (0xF1C40A40, .relst 7 4 2 4 1), (0xF9C52802, .movc 7 5 10)] : List (W32 × Instr)),
    decode r.1 = .ok r.2) ∧
  decode 0xA1C40B80 = .illegal ∧ decode 0x3C000000 = .illegal ∧ decode 0x51D21112 = .reserved (.vcmp 7 1 1 2 2)

/-- R202, R203: translating the bytes of an access changes nothing but the translations that are cached. -/
def Obligations.TranslationOnlyCaches : Prop :=
  ∀ (s : State) (w : Who) (a : Acc) (va : Nat) (pieces : List (Nat × Nat)) (own : Bool) (lanes : List (Nat × Nat)),
    Cached s (s.place w a va).1 ∧ Cached s (s.enginePlace w a va).1 ∧ Cached s (s.xlate w a pieces).1 ∧
      Cached s (s.xlateLanes own a lanes).1

/-- R26, R113: place k of a rotation over 16 is chosen after the place `last`, past the eligible ones `before` it: the first
eligible without a YIELD mark; where all of several are marked, the second. -/
def Chosen (last : Nat) (eligible marked : Nat → Bool) (k : Nat) (before : List Nat) : Prop :=
  k < 16 ∧ eligible k = true ∧
  before = (((List.range 16).map (fun j => (last + 1 + j) % 16)).takeWhile (fun j => j ≠ k)).filter eligible ∧
  ((marked k = false ∧ ∀ j ∈ before, marked j = true) ∨ ((∀ j < 16, eligible j = true → marked j = true) ∧
    (before.length = 1 ∨ (before = [] ∧ ∀ j < 16, eligible j = true → j = k))))

/-- The machine after a turn that leaves t: nanoseconds have passed, and what others read and keep of the bytes that the
turn has written is noted (R70, R130). -/
def closed (s : State) (m : Mover) (dt : Nat) (t : State) : State :=
  ({ s with wrote := [] } : State).noteOld (t.actor m) (t.pass dt)

/-- R26 to R28, R58, R75, R84, R91, R113, R335, R400, R401: a turn of a quad's cycle is its due core's, the one with the
oldest instruction, the lower of two. Its clock counts; with FDUTY permitting, the chosen context, past those that are not
eligible, takes a pending cause, or runs the instruction that the word at its PC decodes to when every operand read wins its
bank, one read to a bank in a cycle; its banks are granted, and the end of its chain follows (R70, R339). With a read lost
nothing happens but that the lost reads are counted and asked for again (which core comes first, and what a replay asks
for, is log 9). A word that is none traps, as does one of a slot not LANDED. A service core chooses among the first 16
contexts AWAY, and fetches by the VF's page table (log 18). -/
def Obligations.StepRunsTheDecodedInstruction : Prop :=
  ∀ (s : State) (a n k dt : Nat) (bank : Option Nat) (rest : List Turn) (before : List Nat),
    s.hub.started = true → s.tickDue = false →
    let s1 : State := { s with wrote := [], schedule := rest }
    let runsAt (v : State) (w : W32) (i : Instr) : Prop := decode w = .ok i ∨ (decode w = .illegal ∧ i = .illegalInstruction 0x01 w) ∨
      (∃ j, decode w = .reserved j ∧ i = .illegalInstruction (if j.accepts v.cx.chain then 0x02 else 0x01) w)
    let issues (m : Mover) (v : State) (w : W32) : Prop := ∀ i, runsAt v w i →
      let won := v.countReplay.grant i
      (∀ l, v.cx.owed = some l → v.requests i = l) ∧
      (((v.requests i).Nodup ∧ ∀ b ∈ v.requests i, b ∉ v.taken) → ∀ t, exec i won = .next t →
        step s = .next (closed s m dt (v.afterIssue i t))) ∧
      (¬((v.requests i).Nodup ∧ ∀ b ∈ v.requests i, b ∉ v.taken) → ∃ l, l ≠ [] ∧ (∀ b ∈ l, b ∈ v.requests i) ∧
        let t := won.loseTurn l
        step s = .next (closed s m dt t) ∧ t.cx.pc = v.cx.pc ∧ t.cx.chain = v.cx.chain ∧ t.cx.lost = v.cx.lost + 1 ∧
          t.cx.owed = some l ∧ t.mem = v.mem)
    (let q := quadOf n
     let s0 := if s1.roundLeft q = [] then s1.newCycle q else s1
     let b := (s0.modQuad q (fun y => { y with round := n :: y.round, grants := bank.toList ++ y.grants })).expire n
     let c := b.core n
     let ticked := b.tickCore n
     let idle (off : Nat) : Prop := step s = .next (closed s (.core a) dt (ticked.bump q (off + 0x20 * coreInQuad n) 1 8))
     let permits := c.cyc * (b.quad q).fduty / 16 < (c.cyc + 1) * (b.quad q).fduty / 16
     let eligible (j : Nat) : Bool := decide ((c.ctx n j).st = .ready ∧ (4 : Int) ≤ c.cyc - (c.ctx n j).lastIssue)
     s.schedule = ⟨.core a, dt, bank⟩ :: rest → a < 1536 → quadOf a = q → s0.dueCore q = some n →
     (n ∈ s0.roundLeft q ∧ ∀ m ∈ s0.roundLeft q, s0.turnAge n ≤ s0.turnAge m ∧ (s0.turnAge n = s0.turnAge m → n ≤ m)) ∧
     (c.runs = true → ¬permits → idle 0x190) ∧
     (c.runs = true → permits → (∀ j < 16, eligible j = false) → (∀ y ∈ c.ctxs, y.2.st ≠ .ready) → idle 0x180) ∧
     (permits → Chosen c.last eligible (fun j => (c.ctx n j).yielded) k before →
       let v0 := ((ticked.modCore n (fun y => { y with last := k })).modCtx n k (fun y =>
         { y with lastIssue := (c.cyc : Int), yielded := false })).unmark (before.map (fun j => (n, j)))
       let v : State := { v0 with cur := ⟨n, k⟩ }
       let slot := (v.core n).slot (v.wordPc.toNat / 1024)
       v.taken = bank.toList ++ (s0.quad q).grants ∧
       (v.cx.pend ≠ [] → step s = .next (closed s (.core a) dt (v.deliverPending n k))) ∧
       (v.cx.pend = [] → slot.state ≠ .landed → step s = .next (closed s (.core a) dt (v.raise 0x06 (v.wordPc.zeroExtend 64)))) ∧
       (v.cx.pend = [] → slot.state = .landed → slot.poison.contains (v.wordPc.toNat % 1024) = false →
         issues (.core a) v ((mapGet slot.words (v.wordPc.toNat % 1024)).getD 0)))) ∧
    (let x := s.tile a
     let run := x.away.take 16
     let at' (j : Nat) : Nat × Nat := (run[j]?).getD (0, 0)
     let eligible (j : Nat) : Bool := decide (j < run.length ∧
       (4 : Int) ≤ x.cyc - (mapGet x.issued (16 * (at' j).1 + (at' j).2)).getD (-4))
     let marked (j : Nat) : Bool := decide (j < run.length) && (s.ctx (at' j).1 (at' j).2).yielded
     s.schedule = ⟨.service a, dt, bank⟩ :: rest → a < 48 → Chosen x.last eligible marked k before →
     let p := at' k
     let v0 := ((s1.modTile a (fun y => { y with cyc := y.cyc + 1 })).modTile a (fun y =>
       { y with last := k, issued := mapSet y.issued (16 * p.1 + p.2) (x.cyc : Int) })).unmark (p :: before.map at')
     let v : State := { v0 with cur := ⟨p.1, p.2⟩ }
     let va := (v.vf v.myVf).record.hentry.toNat / 4096 * 4096 + 4 * (v.wordPc.toNat % 1024)
     (∀ u pa att, v.place v.me accX va = (u, .at pa att false) → u.poisoned pa = false →
       issues (.service a) u (BitVec.ofNat 32 (u.view pa 4))) ∧
     (∀ u cause, v.place v.me accX va = (u, .bad cause) →
       step s = .next (closed s (.service a) dt (u.raise cause (BitVec.ofNat 64 va)))))

/-- R25, R26, R32, R91, R188, R196: the machine after reset. TSTAMP, MELT and CYC are 0, FDUTY is 16, every operating point
is 2; every context is FREE, in the workspace that its place gives it, whose registers are 0 but ROUND, which is 1, and the
scale registers, which are 0x7F7F (registers the manual gives no reset value are 0: log 1); every code slot is EMPTY; memory
is in its canonical form, with nothing listed. -/
def Obligations.ResetState : Prop :=
  Memory.wf State.reset.mem = true ∧ State.reset.mem = [] ∧ State.reset.poison = [] ∧ State.reset.hub.now = 0 ∧
  State.reset.hub.frac = 0 ∧ State.reset.hub.meltRfz = false ∧ State.reset.hub.leaseId = 1 ∧
  ∀ n k : Nat, n < 1536 → k < 16 →
    let s := { State.reset with cur := ⟨n, k⟩ }
    let q := s.quad (quadOf n)
    (s.core n).last = 15 ∧ (s.core n).cyc = 0 ∧ (s.core n).hoopO = 0 ∧ (s.core n).hoopS = 0 ∧ q.fduty = 16 ∧ q.point = 2 ∧ q.lease = 0 ∧
      q.leaseEnd = 0 ∧ (∀ j, ((s.core n).slot j).state = .empty) ∧ s.cx.st = .free ∧ s.cx.lastIssue = -4 ∧
      s.ws = 0x0010000000000 + 0x200000 * quadOf n + (16 * coreInQuad n + k) * 0x1400 ∧
      (∀ r : BitVec 6, s.getS r = 0) ∧ (∀ (r : BitVec 5) (j : Nat), j < 32 → s.getV r j = 0) ∧ (∀ r : BitVec 3, r ≠ 7 → s.getP r = 0) ∧
      s.flags = 0 ∧ s.nrcnt = 0 ∧ s.roundMode = 1 ∧ (∀ j < 4, s.mxsc j = 0x7F7F ∧ s.arrival j = 0) ∧ ∀ b < 96, s.presence s.ws b = false

/-- The canonical form of memory is kept by every step of the machine, from every state: addresses rise, and no byte is
listed that an unlisted address reads as. -/
def Obligations.MemoryStaysCanonical : Prop :=
  ∀ s t : State, Memory.wf s.mem = true → step s = .next t → Memory.wf t.mem = true


/-! Steps of the part with no instruction behind them. -/

/-- A run of bytes lies outside the configuration page and outside the bytes of a workspace that writes do not change
freely (R80, R91). -/
def Plain (s : State) (segs : List Seg) : Prop :=
  ∀ g ∈ segs, isCfg g.pa = false ∧ ∀ j < g.bytes.length, s.isReserved (g.pa + j) = false ∧ s.isModeByte (g.pa + j) = false

/-- R39, R40, R86, R114, R203, R211, R212, R214, R218, R220, R334: the steps of a core that no instruction takes. Holds and
reservations end at 1,024 cycles; lines asked for and walks in flight arrive, the die's first 64 walks (which of the events
comes when is open: logs 6 and 10); a neighbour write sets its presence bit; loads in flight land: the register takes what
memory, or the context's own unperformed store, gives, the arrival counter goes down by 1, and no other byte changes;
accepted stores and posted stores are performed, their bytes and no others then in memory, or refused, in the orders of
R227 and R228; a retry of their home leaves an access as it is (R398); a code segment lands with the words of its page; the
head of a context's pending causes is delivered at its boundary, in place of a chain that is open (R67); a word that is no
instruction traps. That an event that is not due leaves the state as it is is the model's choice (DESIGN CHOICE, log 4). -/
def Obligations.CoreEventResults : Prop :=
  ∀ (n k i j line : Nat) (va : W64) (cause : BitVec 6) (word : W32) (s : State),
    let x := s.ctx n k
    let vf := (s.quad (quadOf n)).vf
    let e := (s.core n).entry j
    (x.st = .held → exec (.holdConditionClears n k) s = .next (s.modCtx n k (fun y => { y with st := .ready, hold := none }))) ∧
    (∀ c, x.st = .held → x.hold = some c → 1024 ≤ c → exec (.holdTimeout n k) s =
      .next (s.modCtx n k (fun y => { y with st := .ready, hold := none, resv := none, resvLost := y.resvLost || y.resv.isSome }))) ∧
    (∀ r, x.resv = some r → 1024 ≤ r.cycles →
      exec (.landingReservationExpiry n k) s = .next (s.modCtx n k (fun y => { y with resv := none, resvLost := true }))) ∧
    (line ∉ (s.core n).fills → exec (.lineFillComplete n line) s = .next s) ∧
    (line ∈ (s.core n).fills → s.askBusy (tileOf n) [(64 * line, 64)] 0 = false →
      let m := s.l1Core n line
      let held := (s.core m).hasLine line || (s.tile (tileOf n)).hasLine line
      ∃ t, exec (.lineFillComplete n line) s = .next t ∧ line ∉ (t.core n).fills ∧ t.mem = s.mem ∧ t.quads = s.quads ∧
        ((s.core m).hasLine line = true ∨ (s.core m).l1.length < 1024 → (t.core m).hasLine line = true) ∧
        (s.usage vf).hbmb + (if isHbm (64 * line) && !held then 64 else 0) ≤ (t.usage vf).hbmb) ∧
    (let mine := ((s.dieWalks (dieOf n)).take 64).find? (fun w => w.core = n && w.page = va.toNat / 4096)
     (∀ r, mine = some r → ∃ t, exec (.pageWalkComplete n va) s = .next t ∧ Cached s t ∧
        t.hub.walks = s.hub.walks.filter (fun w => w ≠ r)) ∧
     (mine = none → exec (.pageWalkComplete n va) s = .next s)) ∧
    (∀ u pa att target, x.park = .ge va target true → x.st = .parked →
      s.place ⟨n, vf, false, false, some (quadOf n)⟩ accR.config va.toNat = (u, .at pa att false) → u.poisoned pa = false →
      u.askBusy (tileOf n) [(pa, 8)] 0 = false →
      let r := u.readRuns n vf 0 [(pa, 8, false)]
      exec (.parkGeReadComplete n k) s = .next (if target.toNat ≤ r.loadFor n k pa 8
        then r.modCtx n k (fun y => { y with st := .ready, park := .none, past := [] })
        else r.modCtx n k (fun y => { y with park := .ge va target false }))) ∧
    (∀ p rest, x.nputs = p :: rest → ∃ t, exec (.nputLanding n k) s = .next t ∧ t.presence p.ws p.bit = true ∧
      (t.ctx n k).nputs = rest ∧ (x.st = .parked → x.park = .nb p.bit → p.ws = s.wsOf n k → (t.ctx n k).st = .ready) ∧
      (p.bit < 64 → p.bytes.length = 8 → Memory.readBytes t.mem (p.ws + 8 * p.bit) 8 = p.bytes) ∧
      (64 ≤ p.bit → p.bit < 96 → p.bytes.length = 128 →
        Memory.readBytes t.mem (p.ws + 0x200 + 0x80 * (p.bit - 64)) 128 = p.bytes)) ∧
    (∀ l, x.ldas[i]? = some l → (∀ m ∈ x.ldas.take i, overlap m.reads l.reads = false ∧ (m.ord ≠ 0 ∨ l.ord ≠ 0)) →
      let landing : Instr := if l.vec then .vldaLanding n k i else .ldaLanding n k i
      (s.askBusy (tileOf n) l.reads 0 = false → exec landing s =
        .next ((s.modCtx n k (fun y => { y with ldas := dropAt x.ldas i })).land n k l)) ∧
      (s.askBusy (tileOf n) l.reads 0 = true → ∃ t, exec landing s = .next t ∧ t.mem = s.mem ∧ (t.ctx n k).ldas = x.ldas)) ∧
    (∀ l : Lda, s.poison = [] → l.own = [] → l.old = [] → l.ctr < 4 →
      let look (a : Nat) : Byte := s.lookFor n k a
      let t := s.land n k l
      let counter := l.ws + 0x1220 + 2 * l.ctr
      t.peek counter 2 = (s.peek counter 2 + 0xFFFF) % 0x10000 ∧
      (l.vec = false → l.dst < 64 →
        let v := leNat (l.bytes.flatMap (fun r => (List.range r.2).map (fun j => look (r.1 + j))))
        (l.dst ≠ 0 → BitVec.ofNat 64 (t.peek (l.ws + 8 * l.dst) 8) =
          if l.dbl then BitVec.ofNat 64 v else (BitVec.ofNat 32 v).signExtend 64) ∧
        ∀ a, ¬(counter ≤ a ∧ a < counter + 2) → ¬(l.dst ≠ 0 ∧ l.ws + 8 * l.dst ≤ a ∧ a < l.ws + 8 * l.dst + 8) →
          t.byte a = s.byte a) ∧
      (l.vec = true → l.dst < 32 → (l.elems.map (fun e => e.lane)).Nodup → (∀ e ∈ l.elems, e.lane < 32) →
        let place (j : Nat) : Nat := l.ws + 0x200 + 0x80 * l.dst + 4 * j
        (∀ e ∈ l.elems, t.peek (place e.lane) 4 = (loadLane e.attr.fmt e.attr.sh
          (match e.scale with | some y => (look y.1).toNat | none => 127) l.rm
          (leNat ((List.range (fmtBytes e.attr.fmt)).map (fun j => look (e.pa + j))))).toNat) ∧
        ∀ a, ¬(counter ≤ a ∧ a < counter + 2) → (∀ e ∈ l.elems, ¬(place e.lane ≤ a ∧ a < place e.lane + 4)) →
          t.byte a = s.byte a)) ∧
    (∀ p : PendStore, Plain s p.segs → NoHostWatch s →
      ((∀ g ∈ p.segs, ∀ j < g.bytes.length, s.refuses (g.pa + j) p.event = false ∧ s.takes (g.pa + j) p.event = true) → ∀ a,
        (s.performStore n k p).byte a = (segsAt p.segs a).getD (s.byte a)) ∧
      ((∀ g ∈ p.segs, g.bytes ≠ [] ∧ ∀ j < g.bytes.length, s.refuses (g.pa + j) p.event = true) → p.segs ≠ [] → ∃ (a : W64) (u : State),
        s.performStore n k p = u.pendCause n k 0x19 a true ∧ u.mem = s.mem)) ∧
    (∀ (part : Nat) (segs : List Seg), Plain s segs → NoHostWatch s → (∀ g ∈ segs, s.takes g.pa 2 = true) → ∀ a,
      (s.performSegs part vf segs).byte a = (segsAt segs a).getD (s.byte a)) ∧
    (∀ p, x.stores[i]? = some p →
      (∀ q ∈ x.stores.take i, overlap (segRuns q.segs) (segRuns p.segs) = false ∧ (q.ord ≠ 0 ∨ p.ord ≠ 0)) →
      (∀ q, (x.stores.take i).getLast? = some q → q.more = false) →
      (s.storeBusy n p = true → ∃ t, exec (.storePerformed n k i) s = .next t ∧ t.mem = s.mem ∧ (t.ctx n k).stores = x.stores) ∧
      (s.storeBusy n p = false →
      let done := (s.modCtx n k (fun y => { y with stores := dropAt x.stores i })).performStore n k p
      exec (.storePerformed n k i) s = .next done ∧
      ((∃ g ∈ p.segs, isCfg g.pa = true ∧ cfgOff g.pa < 0x80) → exec (.localWindowEntryWrite n k i) s = .next done))) ∧
    (∀ p, x.stores[i]? = some p → ∃ t, exec (.deviceRequestRepeat n k i) s = .next t ∧ t.mem = s.mem ∧ (t.ctx n k).stores = x.stores) ∧
    (e.state = .pending → s.postFree n j = true →
      (s.postRefusal e = none → s.homeBusy (segRuns e.segs) 2 (some (tileOf n)) = true → ∃ t, exec (.pstAcknowledge n j) s = .next t ∧
        t.mem = s.mem ∧ (t.core n).entry j = e) ∧
      (s.postRefusal e = none → s.homeBusy (segRuns e.segs) 2 (some (tileOf n)) = false → exec (.pstAcknowledge n j) s =
        .next (((s.modEntry n j (fun _ => JEntry.free)).performSegs (tileOf n) e.vf e.segs).settled n e.owner e.ord (segRuns e.segs))) ∧
      (∀ c, s.postRefusal e = some c → exec (.pstRefusal n j) s = .next (s.refusePost n j c))) ∧
    (((s.core n).slot i).state = .filling → let f := (s.core n).slot i
      (s.engineBusy (tileOf n) [(f.frame, 4096)] 0 ≠ [] → ∃ t, exec (.cfetchFillLanded n i) s = .next t ∧ t.mem = s.mem ∧
        (t.core n).slot i = f) ∧
      (s.engineBusy (tileOf n) [(f.frame, 4096)] 0 = [] → ∃ t, exec (.cfetchFillLanded n i) s = .next t ∧ t.mem = s.mem ∧ let y := (t.core n).slot i
        y.state = .landed ∧ y.sva = f.sva ∧ y.vf = f.vf ∧
          ∀ w < 1024, (mapGet y.words w).getD 0 = BitVec.ofNat 32 (s.view (f.frame + 4 * w) 4))) ∧
    (∀ p rest, x.st = .ready → x.pend = p :: rest → exec (.asyncTrapDelivery n k) s =
      .next ((s.modCtx n k (fun y => { y with pend := rest })).deliverTrap n k p.cause true x.pc false p.tval)) ∧
    exec (.illegalInstruction cause word) s = .next (s.raise cause (word.zeroExtend 64))


/-- The step goes on to a machine as described, with every byte of memory as it was. -/
def keepsMemory (i : Instr) (s : State) (what : State → Prop) : Prop :=
  ∃ t, exec i s = .next t ∧ t.mem = s.mem ∧ t.poison = s.poison ∧ what t

/-- Element k of row r of an operand: its virtual address, a byte of its page, its code, and the scale byte of its block,
127 on a page without a shadow (R127, R168). -/
def elemVa (x : Operand) (r k : Nat) : Nat := (x.va + r * x.stride + k * fmtBytes x.attr.fmt) % 2 ^ 64
def operandPa (x : Operand) (va a : Nat) : Nat := (mapGet x.pages (va / 4096)).getD 0 + va % 4096 + a
def elemCode (s : State) (x : Operand) (r k : Nat) : Nat :=
  leNat ((List.range (fmtBytes x.attr.fmt)).map (fun j => s.look (operandPa x (elemVa x r k) j)))
def elemScale (s : State) (x : Operand) (r k : Nat) : Nat :=
  match mapGet x.scales (elemVa x r k / 4096) with
  | some p => (s.look (p + elemVa x r k % 4096 / (fmtBytes x.attr.fmt * 2 ^ x.attr.g))).toNat
  | none => 127
/-- No element of the operand runs over the end of its page. -/
def OnPages (x : Operand) (rows n : Nat) : Prop :=
  ∀ r < rows, ∀ k < n, elemVa x r k % 4096 + fmtBytes x.attr.fmt ≤ 4096

/-- An accumulator word after one piece: the exact value v added, rounded once, and under the clamp of MXMULS the largest
finite value for an infinity (R138, R173). -/
def Accumulates (rm : Nat) (clamp : Bool) (old new : W32) (v : ℚ) : Prop :=
  ∀ a, valueOf (num32 old) = some a → ∃ n, valueOf n = some (a + v) ∧
    let w : W32 := BitVec.ofNat 32 (encodeNum fp32 rm 0 false n).1
    new = if clamp = true ∧ magF w = 0x7F800000 then (w &&& 0x80000000) ||| 0x7F7FFFFF else w

/-- R138, R164, R173, R175, R179: what a finished operation of quad q leaves, of a context, with no poison in its way.
MXZERO clears its window, MXWR loads it with the lanes that the elements and their scales give, MXRD stores the elements'
codes and no other byte; MXMUL and MXMULS without a program add the pieces of K to each element in ascending order, one
exact sum and one rounding to each piece, NaN where an operand, a scale or EA or EB is NaN. Elements outside the window keep
their values, NaNs are counted where a value that was none becomes one, and the operation is in flight no more. -/
def Obligations.MatrixArithmeticResults : Prop :=
  ∀ (q i n k : Nat) (o : MxOp) (s : State), (s.quad q).ops[i]? = some o → s.opReady q o = true → o.source = .ctx n k →
    s.poison = [] → (s.quad q).accPoison = [] → (s.quad q).thresh = 0 → o.old = [] → o.win.n ≤ 128 →
    ∃ t, exec (.matrixOperationFinish q i) s = .next t ∧ (t.quad q).ops = dropAt (s.quad q).ops i ∧
      (let cell (r c : Nat) : Nat := 128 * (o.win.row0 + r) + c
       let inside (e : Nat) : Prop := ∃ r < o.win.m, ∃ c < o.win.n, e = cell r c
       let kept : Prop := ∀ e, ¬inside e → (t.quad q).acc e = (s.quad q).acc e
       let nans : Nat := ((List.range o.win.m).flatMap (fun r => (List.range o.win.n).filter (fun c =>
         decide (0x7F800000 < magF ((t.quad q).acc (cell r c)) ∧ ¬0x7F800000 < magF ((s.quad q).acc (cell r c)))))).length
       let nanCount : Prop := fld (t.quad q).status 31 16 = min (fld (s.quad q).status 31 16 + nans) 0xFFFF
       (o.kind = .zero → kept ∧ (∀ r < o.win.m, ∀ c < o.win.n, (t.quad q).acc (cell r c) = 0) ∧
         (t.quad q).status = (s.quad q).status ∧ t.mem = s.mem) ∧
       (∀ x, o.kind = .wr → o.a = some x → OnPages x o.win.m o.win.n → kept ∧ nanCount ∧ t.mem = s.mem ∧
         ∀ r < o.win.m, ∀ c < o.win.n, (t.quad q).acc (cell r c) =
           loadLane x.attr.fmt x.attr.sh (elemScale s x r c) o.rm (elemCode s x r c)) ∧
       (∀ x, o.kind = .rd → o.a = some x → OnPages x o.win.m o.win.n → NoHostWatch s →
         let f := x.attr.fmt
         let place (r c : Nat) : Nat := operandPa x (elemVa x r c) 0
         (∀ r < o.win.m, ∀ c < o.win.n, ∀ j < fmtBytes f, isLocal (place r c + j) = true ∧ s.isProtected (place r c + j) = false ∧
           s.isReserved (place r c + j) = false ∧ s.isModeByte (place r c + j) = false) →
         (∀ r < o.win.m, ∀ c < o.win.n, ∀ u < o.win.m, ∀ v < o.win.n, (r, c) ≠ (u, v) →
           place r c + fmtBytes f ≤ place u v ∨ place u v + fmtBytes f ≤ place r c) →
         (∀ e, (t.quad q).acc e = (s.quad q).acc e) ∧
         (∀ r < o.win.m, ∀ c < o.win.n,
           let y := (s.quad q).acc (cell r c)
           let sc := elemScale s x r c
           t.peek (place r c) (fmtBytes f) =
             if f = 0 ∨ (f = 1 ∧ x.attr.sh = false) then y.toNat
             else if x.attr.sh = true ∧ sc = 255 then (fmtOf f).nan
             else (encodeElem f o.rm false 1 ((num32 y).scale (127 - (sc : ℤ)))).1 % 256 ^ fmtBytes f) ∧
         ∀ a, (∀ r < o.win.m, ∀ c < o.win.n, ¬(place r c ≤ a ∧ a < place r c + fmtBytes f)) → t.byte a = s.byte a) ∧
       (∀ x y, o.kind = .mul ∨ o.kind = .muls → o.a = some x → o.b = some y → o.prog = none → 1 ≤ o.rm → o.rm ≤ 4 →
         OnPages x o.win.m o.win.k → OnPages y o.win.n o.win.k → kept ∧ nanCount ∧ t.mem = s.mem ∧
         ∀ r < o.win.m, ∀ c < o.win.n,
           let block (z : Operand) (j l : Nat) : Nat := elemVa z j l / (fmtBytes z.attr.fmt * 2 ^ z.attr.g)
           let cut (l : Nat) : Prop := l = 0 ∨ (if x.attr.sh || y.attr.sh then
               (x.attr.sh = true ∧ block x r l ≠ block x r (l - 1)) ∨ (y.attr.sh = true ∧ block y c l ≠ block y c (l - 1))
             else l % 32 = 0)
           let scaleOf (z : Operand) (j l : Nat) : Nat := if o.sc.getLsbD 16 then elemScale s z j l else 127
           let ea := fld o.sc 7 0
           let eb := fld o.sc 15 8
           ∃ acc : Nat → W32, acc 0 = (s.quad q).acc (cell r c) ∧ (t.quad q).acc (cell r c) = acc o.win.k ∧
             ∀ b e, cut b → b < e → (e = o.win.k ∨ (e < o.win.k ∧ cut e)) → (∀ l, b < l → l < e → ¬cut l) →
               let sa := scaleOf x r b
               let sb := scaleOf y c b
               (ea = 255 ∨ eb = 255 ∨ sa = 255 ∨ sb = 255 ∨ isNaN (acc b) ∨ (∃ l, b ≤ l ∧ l < e ∧
                   ((elemNum x.attr.fmt (elemCode s x r l)).isNan = true ∨ (elemNum y.attr.fmt (elemCode s y c l)).isNan = true)) →
                 acc e = 0x7FC00000) ∧
               (ea ≠ 255 → eb ≠ 255 → sa ≠ 255 → sb ≠ 255 → ∀ av bv : Nat → ℚ, (∀ l, b ≤ l → l < e →
                   valueOf (elemNum x.attr.fmt (elemCode s x r l)) = some (av l) ∧
                   valueOf (elemNum y.attr.fmt (elemCode s y c l)) = some (bv l)) →
                 Accumulates o.rm (o.kind = .muls) (acc b) (acc e) (((List.range (e - b)).map (fun l => av (b + l) * bv (b + l))).sum *
                   (2 : ℚ) ^ ((ea + eb : ℤ) - 254 + (sa - 127) + (sb - 127))))))

/-- Every byte of some bytes of a local memory is one that a copy may write as it is (R80, R81, R91). -/
def Free (s : State) (pa n : Nat) : Prop :=
  ∀ j < n, s.isProtected (pa + j) = false ∧ s.isReserved (pa + j) = false ∧ s.isModeByte (pa + j) = false

/-- R281, R292, R294: the bytes of a copy. The bytes of one sector go from source to destination and nowhere else; so do all
rows of a copy inside a local memory, whose source it does not overwrite: afterwards every byte of a destination row is that
of its source row, and DONE counts them. The add takes the signed sum, of the bytes or, with MODE bit 0, of 1 when no
sector faulted. That the bytes move in one step is the model's (log 6). -/
def Obligations.CopyMovesItsBytes : Prop :=
  ∀ (n m pa qa : Nat) (c : Copy) (s u v : State), s.copyAt n m = some c → n < 1536 → s.poison = [] → NoHostWatch s →
    let w := engineOf n c.vf
    let src := c.regs.src.toNat
    let dst := c.regs.dst.toNat
    let len := c.regs.bytes.toNat
    (c.moved = false → c.regs.rows = 1 → 0 < len → dst % 64 + len ≤ 64 → src % 4096 + len ≤ 4096 →
      s.enginePlace w accR.global src = (u, .inl pa) →
      (u.engineRead (tileOf n) c.vf [(pa, len)]).enginePlace w accW.global dst = (v, .inl qa) → isCfg qa = false → Free s qa len →
      v.refuses qa 2 = false → v.takes qa 2 = true →
      (∀ a, (s.moveCopy n m).byte a = if qa ≤ a ∧ a < qa + len then s.look (pa + (a - qa)) else s.byte a) ∧
      ∃ d, (s.moveCopy n m).copyAt n m = some d ∧ d.moved = true ∧ d.done = len ∧ d.missing = [] ∧ d.faulted = false) ∧
    (c.moved = false → (∀ j < 16, attrAccepted (attrOf ((s.quad (quadOf n)).attr j)) localWin 0x20000 = true) →
      let rows := c.regs.rows.toNat
      let from' (r : Nat) : Nat := (c.regs.src + BitVec.ofNat 64 r * c.regs.srcStride).toNat
      let to' (r : Nat) : Nat := (c.regs.dst + BitVec.ofNat 64 r * c.regs.dstStride).toNat
      let home (va : Nat) : Nat := quadLocal (quadOf n) + (va - localWin)
      (∀ r < rows, localWin ≤ from' r ∧ from' r + len ≤ localWin + Memory.localSize ∧ localWin ≤ to' r ∧
        to' r + len ≤ localWin + Memory.localSize ∧ Free s (home (to' r)) len) →
      (∀ r < rows, ∀ x < rows, (from' r + len ≤ to' x ∨ to' x + len ≤ from' r) ∧ (r ≠ x → to' r + len ≤ to' x ∨ to' x + len ≤ to' r)) →
      (∀ r < rows, ∀ j < len, (s.moveCopy n m).byte (home (to' r) + j) = s.look (home (from' r) + j)) ∧
      (∀ a, (∀ r < rows, ¬(home (to' r) ≤ a ∧ a < home (to' r) + len)) → (s.moveCopy n m).byte a = s.byte a) ∧
      ∃ d, (s.moveCopy n m).copyAt n m = some d ∧ d.moved = true ∧ d.done = rows * len ∧ d.missing = []) ∧
    (c.moved = true → s.moveCopy n m = s) ∧
    (s.enginePlace w accRW.global c.regs.counter.toNat = (u, .inl pa) → Free s pa 8 → u.refuses pa 3 = false → u.takes pa 3 = true →
      NoSuspended s pa →
      let amount : Nat := if c.regs.mode.getLsbD 0 then (if c.faulted then 0 else 1) else c.done
      BitVec.ofNat 64 ((s.copyAdd n m c).peek pa 8) = BitVec.ofInt 64 (min ((BitVec.ofNat 64 (s.peek pa 8)).toInt + amount) (2 ^ 63 - 1)))

/-- R164, R171, R172, R183, R204, R205, R255, R279, R292 to R294, R312, R319, R334, R348: the steps of engines. A copy moves its
bytes once (CopyMovesItsBytes says which), records its faulting pages, before its add or after it, adds to its counter and
frees its slot (that a promise is a free value and a copy with records to write goes on is log 13); a promise missed is cause
0x20; a cause for a sender goes to it while its core is its hoop's, else to its VF when it is gone, as a record whose
fields log 62 fixes where R325 leaves them open; a matrix operation whose slots are filled finishes (MatrixArithmeticResults);
a command arrives, is accepted or refused, and its refusal returns as cause 0x24; a flit joins its channel; a scope miss is
cause 0x17; a continuation whose target is reached is pushed, else registered; a probed participant wakes and gives up its
line; an answer overdue is asked for again, of one that sleeps after 4 us; poison marks the granule of an error that is not
corrected, and a self-test's record has free bytes (log 20). An engine's access that meets a retry is made again, with
nothing done (R398). That an event that is not due leaves the state as it is is the model's choice (DESIGN CHOICE, log 4). -/
def Obligations.EngineEventResults : Prop :=
  ∀ (n m q i line p pa bank : Nat) (s : State),
    (∀ c, s.copyAt n m = some c → c.regs.counter ≠ 0 → c.added = false → s.copyTurn n c = true →
      let busy := s.copyBusy n m ++ s.addBusy (engineOf n c.vf) c.regs.counter.toNat
      let u := (s.moveCopy n m).promiseTest n m
      (busy = [] → ∃ d, u.copyAt n m = some d ∧ exec (.copyCounterAdd n m) s = .next ((u.copyAdd n m d).leaveSlot n m)) ∧
      (busy ≠ [] → ∃ t, exec (.copyCounterAdd n m) s = .next t ∧ t.mem = s.mem ∧ t.copyAt n m = some c)) ∧
    (∀ c, s.copyAt n m = some c → c.regs.counter = 0 → c.added = false → s.copyBusy n m = [] →
      exec (.copyLastBytePerformed n m) s = .next (((s.moveCopy n m).promiseTest n m).leaveSlot n m)) ∧
    (∀ c, s.copyAt n m = some c → (s.leaveSlot n m).mem = s.mem ∧ (s.leaveSlot n m).copyAt n m = none ∧
      (c.missing ≠ [] → (s.leaveSlot n m).copyAt n (32 * (c.order + 1) + m) = some { c with added := true })) ∧
    (s.copyBusy n m = [] → exec (.copySectorFault n m) s = .next (((s.moveCopy n m).recordMissing n m).dropDone n m)) ∧
    (∀ c x rest, s.copyAt n m = some c → c.missing = x :: rest → s.recordMissing n m =
      (s.setCopy n m { c with missing := rest, recorded := true }).faultRecord c.vf x.cause x.page x.sect c.tag
        (srcCopy (copyId c.serial n m)) 0 0) ∧
    (∀ c, s.copyAt n m = some c → c.moved = true → c.late = false → c.promise.toNat < (s.tstamp (tileOf n)).toNat →
      let late := s.setCopy n m { c with late := true }
      exec (.missedPromise n m) s = .next (if c.faulted then late
        else late.pendSender n c.ctx c.hoop c.vf c.tag (!c.live) 0x20 (BitVec.ofNat 64 (copyId c.serial n m)))) ∧
    (∀ (k vf : Nat) (hoop : Option Nat) (tag : W64) (cause : BitVec 6) (tval : W64),
      ((s.core n).hoop = hoop → (s.ctx n k).st ≠ .free → s.pendSender n k hoop vf tag false cause tval = s.pendCause n k cause tval true) ∧
      (cause ≠ 0x18 → cause ≠ 0x21 → s.pendSender n k hoop vf tag true cause tval =
        s.faultRecord vf cause tval.toNat 0 tag (srcCtx n k) 0 0)) ∧
    (∀ o, (s.quad q).ops[i]? = some o → s.opReady q o = true →
      (s.opBusy q o = [] → exec (.matrixOperationFinish q i) s = .next (s.finishOp q i o)) ∧
      (s.opBusy q o ≠ [] → ∃ t, exec (.matrixOperationFinish q i) s = .next t ∧ t.mem = s.mem ∧ t.quad q = s.quad q)) ∧
    (∀ o, (s.quad q).ops[i]? = some o → s.opReady q o = false → exec (.matrixOperationFinish q i) s = .next s) ∧
    (∀ f, mapGet (s.quad q).slots m = some f →
      (f.filled = true ∨ s.engineBusy (tileOfQuad q) f.runs 0 = [] → ∃ t, exec (.fetchSlotFill q m) s = .next t ∧ t.mem = s.mem ∧
        mapGet (t.quad q).slots m = some { f with filled := true }) ∧
      (f.filled = false → s.engineBusy (tileOfQuad q) f.runs 0 ≠ [] → ∃ t, exec (.fetchSlotFill q m) s = .next t ∧ t.mem = s.mem ∧
        mapGet (t.quad q).slots m = some f)) ∧
    keepsMemory (.pinReleaseComplete p) s (fun t => (t.tile p).pinBusy = 0) ∧
    keepsMemory (.participantReportsGated p) s (fun t => (t.tile p).gated = true) ∧
    (∀ c, s.hub.commands[i]? = some c → let target := (c.token.extractLsb' 46 9).toNat
      (target ≥ 384 → keepsMemory (.mxcmdArrival i) s (fun t => c ∈ t.hub.returns)) ∧
      (target < 384 → (s.quad target).inbox.length < 4 → keepsMemory (.mxcmdArrival i) s (fun t =>
        (t.quad target).inbox = (s.quad target).inbox ++ [c] ∧ t.hub.commands = dropAt s.hub.commands i))) ∧
    (∀ c rest, (s.quad q).inbox = c :: rest → s.roundLeft q = [] ∨ 8 ≤ (s.quad q).ties → let r := s.commandOp q c
      let taken := r.1.modQuad q (fun y => { y with inbox := rest, tied := false, ties := 0 })
      (r.2 = none → exec (.mxcmdAcceptance q) s = .next (taken.modHub (fun h => { h with returns := h.returns ++ [c] }))) ∧
      (∀ o, r.2 = some o → (s.quad q).busy o.win = false → exec (.mxcmdAcceptance q) s = .next (taken.acceptOp q o))) ∧
    (∀ c, s.hub.returns[i]? = some c → let t := s.modHub (fun h => { h with returns := dropAt h.returns i })
      exec (.mxcmdRefusalReturn i) s = .next (t.pendSender c.core c.ctx c.hoop c.vf c.tag (!c.live) 0x24 c.token)) ∧
    (∀ f rest, m < 4 → ((s.core n).chan m).flight = f :: rest → (∀ x ∈ rest, x.sender = f.sender) →
      keepsMemory (.flitArrival n m) s (fun t => (t.core n).chan m = ⟨((s.core n).chan m).flits ++ [f], rest⟩)) ∧
    (∀ c, s.hub.misses[i]? = some c → let t := s.modHub (fun h => { h with misses := dropAt h.misses i })
      exec (.scopeMissMessage i) s =
        .next (t.pendSender c.core c.ctx c.hoop c.vf (c.gone.getD 0) c.gone.isSome 0x17 c.va)) ∧
    (∀ c u, s.hub.susps[i]? = some c → c.registered = none → s.poison = [] →
      s.enginePlace (engineOf c.core c.vf) accR.global c.counter.toNat = (u, .inl pa) →
      s.engineBusy (tileOf c.core) [(pa, 8)] 0 = [] → exec (.suspRegistration i) s =
        .next (if c.target.toNat ≤ s.view pa 8 then (u.modHub (fun h => { h with susps := dropAt h.susps i })).pushCont c.hoop c.record
          else u.modHub (fun h => { h with susps := modAt (fun x => { x with registered := some pa }) h.susps i }))) ∧
    ((s.dirOf line).wait.contains p = true → p < 48 → ∃ t, exec (.homeAgentProbe line p) s = .next t ∧ t.mem = s.mem ∧
      (t.dirOf line).wait = (s.dirOf line).wait.filter (fun x => x ≠ p) ∧ (t.tile p).gated = false ∧
      ((s.dirOf line).drops.contains p = true → (t.tile p).hasLine line = false)) ∧
    (let e := s.dirOf line
     let sent (x : Nat) : Nat × Nat := (mapGet e.sent x).getD (0, 0)
     let late := e.wait.filter (fun x => (sent x).1 + (if x < 48 && (s.tile x).gated then 4000 else 1000) ≤ s.hub.now)
     (late = [] → exec (.homeMessageTimeout line) s = .next s) ∧
     (late ≠ [] → (∀ x ∈ late, (sent x).2 < 3) → exec (.homeMessageTimeout line) s =
       .next (s.setDir line { e with sent := late.foldl (fun m x => mapSet m x (s.hub.now, (sent x).2 + 1)) e.sent }))) ∧
    (isLocal pa = false → isSvc pa = false → exec (.softError (.mem pa) true) s = .next s ∧
      ∃ t, exec (.softError (.mem pa) false) s = .next t ∧ t.poisoned pa = true ∧ t.mem = s.mem) ∧
    ((s.quad q).testing.contains bank = true → exec (.selfTestComplete (.localMem q) bank true) s = .next ((s.modQuad q (fun y =>
      { y with testing := y.testing.filter (fun b => b ≠ bank), spares := y.spares + 1 })).softEvent q 0x01))

/-- R221, R263 to R269, R272 to R275, R365: the events of a home agent. An event takes the action word of its line's
culture, state and number, or under a stock culture does what R267 states of it (where R267 states nothing, the model's
inference, DEDUCED, log 14), and those who lose the line hold it no more; the requester's slice keeps within its slots
(R199); a home defers what would take a line that a context reserves (R40) and answers in a wait with a retry; an evicted
line is in its participant's slice no more, a dirty one by a write-back only; ACK and DATA come to a line that waits for no
answer; a host reads, writes and updates HBM and host memory at the line's home, where its culture takes the bytes (R264),
and gets an error where it may not (DESIGN CHOICE, log 46). A culture image that passes the checks of R266 is loaded, one
that fails is cause 0x18, its place in TVAL as log 44 has it; RANGESET takes effect when every line has left its culture,
TLBINV drops the translations it names from every TLB and from the walk cache. That an event that is not due leaves the
state as it is is the model's choice (DESIGN CHOICE, log 4). -/
def Obligations.HomeEventResults : Prop :=
  ∀ (n k line p pa size op : Nat) (data : BitVec 512) (operand compare : BitVec 128) (s : State),
    let e := s.dirOf line
    let error := s.send (.cxl 0 true)
    let may := 1 ≤ size ∧ pa % 64 + size ≤ 64 ∧ (isHbm pa = true ∨ isHost pa = true)
    let old := leNat ((List.range size).map (fun j => s.look (pa + j)))
    let busy (ev : Nat) : Bool := s.homeBusy [(pa, size)] ev (some 48)
    let ok := (op ≤ 9 ∧ (size = 4 ∨ size = 8) ∨ op = 9 ∧ size = 16) ∧ pa % size = 0
    let slot := s.rangeSlot (64 * line)
    let stocked (ev : Nat) : Bool := slot < 7 && !(slot = 0 && (invWord e.state ev).isSome) && !s.transient slot e.state
    (∀ r ∈ ([(.cultureRd line p, 0), (.cultureRdx line p, 1), (.cultureWrl line p, 2), (.cultureAmo line p, 3),
        (.cultureRed line p, 4), (.cultureAcq line p, 10), (.cultureRel line p, 11)] : List (Instr × Nat)),
      exec r.1 s = .next (if s.deferred line r.2 (some p) = true then s else (s.cultureAct line r.2 (some p)).trimOf (some p))) ∧
    (∀ (ev mask : Nat) (req : Option Nat) (w : W32), w = s.actionWord slot e.state ev → stocked ev = false →
      (w.getLsbD 0 = false → s.cultureAct line ev req mask = s) ∧
      (w.getLsbD 0 = true → ((s.cultureAct line ev req mask).dirOf line).state = (w.extractLsb' 28 4).toNat ∧
        (s.cultureAct line ev req mask).mem = s.mem)) ∧
    (∀ (ev mask : Nat) (req : Option Nat), stocked ev = true → let r := e.stock slot ev req mask
      (s.cultureAct line ev req mask).dirOf line = { r.1 with slot := slot } ∧ (s.cultureAct line ev req mask).mem = s.mem ∧
        ∀ x ∈ r.2, x < 48 → req ≠ some x → ((s.cultureAct line ev req mask).tile x).hasLine line = false) ∧
    (s.mayEvict p line = false → exec (.cultureEvc line p) s = .next s ∧ exec (.cultureWb line p) s = .next s) ∧
    (p < 48 → s.mayEvict p line = true → exec (.cultureEvc line p) s =
        .next (if s.dirtyIn p line then s else (s.dropLine p line).cultureAct line 8 (some p)) ∧
      exec (.cultureWb line p) s = .next ((s.dropLine p line).cultureAct line 9 (some p)) ∧
      ((s.dropLine p line).tile p).hasLine line = false ∧ ∀ c, tileOf c = p → ((s.dropLine p line).core c).hasLine line = false) ∧
    (s.transient slot e.state = true → e.wait = [] →
      exec (.cultureAck line) s = .next ((s.cultureAct line 14 e.requester).trimOf e.requester)) ∧
    (e.dataDue = true → e.wait = [] →
      exec (.cultureData line) s = .next ((s.cultureAct line 15 e.requester).trimOf e.requester)) ∧
    (s.flushBusy line none = true → exec (.cultureFlush line) s = .next s) ∧
    (s.deferred line 13 none = true → exec (.cultureFlip line) s = .next s) ∧
    (s.flushBusy line none = false → ∃ t, exec (.cultureFlush line) s = .next t ∧
      (∀ c j vf ord, CtxOp.flush line vf ord ∉ (t.ctx c j).ops) ∧ ((∀ c j, (s.ctx c j).stores = []) → t.mem = s.mem)) ∧
    (s.deferred line 13 none = false → s.retriesAt line 13 = false → let t := s.cultureAct line 13 none
      (s.moving line = none → exec (.cultureFlip line) s = .next t) ∧
      (∀ x, s.moving line = some x → exec (.cultureFlip line) s = .next (if t.isHome line then t.moveLine x line else t)) ∧
      (stocked 13 = true → (t.dirOf line).sharers = [] ∧ (t.dirOf line).owner = none ∧ (t.dirOf line).sealed = e.sealed)) ∧
    (may → (∀ r ∈ ([(.cultureHrd pa size, 5), (.cultureHwr pa size data, 6), (.cultureHamo op pa size operand compare, 7)] :
        List (Instr × Nat)), busy r.2 = true →
      ∃ t, exec r.1 s = .next t ∧ t.hub.out = .cxlRetry :: s.hub.out ∧ t.mem = s.mem)) ∧
    (may → busy 5 = false → s.poison = [] → exec (.cultureHrd pa size) s =
      .next ((s.homeServe (lineOf pa) 5 (some 48)).send (.cxl (BitVec.ofNat 512 old) false))) ∧
    (¬may → exec (.cultureHrd pa size) s = .next error ∧ exec (.cultureHwr pa size data) s = .next error ∧
      exec (.cultureHamo op pa size operand compare) s = .next error) ∧
    (may → busy 6 = false → s.refuses pa 6 = false → NoHostWatch s → ∃ t, exec (.cultureHwr pa size data) s = .next t ∧
      t.hub.out = .cxl 0 false :: s.hub.out ∧ ∀ a, t.byte a =
        if s.takes pa 6 = true ∧ pa ≤ a ∧ a < pa + size then BitVec.ofNat 8 (data.toNat / 256 ^ (a - pa)) else s.byte a) ∧
    (may → busy 6 = false → s.refuses pa 6 = true → exec (.cultureHwr pa size data) s = .next error) ∧
    (may → ok → busy 7 = false → s.refuses pa 7 = false → s.poison = [] → NoHostWatch s → NoSuspended s (pa / 8 * 8) →
      ∃ t, exec (.cultureHamo op pa size operand compare) s = .next t ∧ t.hub.out = .cxl (BitVec.ofNat 512 old) false :: s.hub.out ∧
        t.peek pa size = (if s.takes pa 7 = false ∨ op = 9 ∧ old ≠ compare.toNat % 256 ^ size then s.peek pa size
          else amoNew size op old (operand.toNat % 256 ^ size) (compare.toNat % 256 ^ size) % 256 ^ size)) ∧
    (∀ slot runs live, (s.ctx n k).ops.find? CtxOp.isCultld = some (.cultld slot runs live) → s.poison = [] →
      let t := s.dropOp n k CtxOp.isCultld
      let vf := match Culture.slot s.hub slot with | some c => c.owner | none => 0
      let image := leNat (runs.flatMap (fun r => (fromTo r.1 r.2).map s.look))
      (imageFault image (imageOf vf image) = none → exec (.cultureCheckComplete n k) s =
        .next (t.modHub (fun h => { h with cultures := mapSet h.cultures slot (imageOf vf image) }))) ∧
      (∀ c st ev, imageFault image (imageOf vf image) = some (c, st, ev) → live = true → (s.ctx n k).pend.length < 8 →
        exec (.cultureCheckComplete n k) s = .next ((t.modHub (fun h => { h with cultures := mapErase h.cultures slot })).pendCause
          n k 0x18 (BitVec.ofNat 64 (c * 2 ^ 56 + st * 256 + ev)) true))) ∧
    (∀ x w0 w1, (s.ctx n k).ops.find? CtxOp.isRangeset = some (.rangeset x w0 w1) →
      ((∃ l ∈ s.toMove x, s.deferred l 13 none = true) → exec (.rangesetPerformed n k) s = .next s) ∧
      ((∀ l ∈ s.toMove x, s.deferred l 13 none = false) → ∃ t, exec (.rangesetPerformed n k) s = .next t ∧ t.mem = s.mem ∧
        mapGet t.hub.ranges x = some ⟨w0, w1, (mapGet s.hub.ranges x).bind (fun r => r.vf), none, []⟩)) ∧
    (∀ vf all va, (s.ctx n k).ops.find? CtxOp.isTlbinv = some (.tlbinv vf all false false va none) →
      ∃ t, exec (.tlbinvPerformed n k) s = .next t ∧
        (∀ c, ∀ y ∈ (t.core c).tlb, y.kept vf va.toNat all = true) ∧ (∀ c, ∀ y ∈ (t.tile c).tlb, y.kept vf va.toNat all = true) ∧
        ∀ y ∈ t.hub.walkCache, y.kept vf va.toNat all = true)


/-- Where a poisoned ring cannot tell of anything: no VF has a fault queue or a host wake ring, no partition an event queue. -/
def NoRings (s : State) : Prop :=
  (∀ v, (s.vf v).record.fring = 0 ∧ (s.vf v).record.hwring = 0) ∧ ∀ p, (s.part p).record.evring = 0

/-- R32, R49 to R51, R117, R323, R331, R332, R339, R366, R377, R399: the steps that launch and end hoops, and a debugger's. A
record's last byte queues it, or tells the VF it names of cause 0x28; a packet is queued, or rejected with a report (status 3 and
no record, log 40; its bytes are LINKB, log 35); a held record enters when there is room; the loader lands segment 0, made again
while it meets a retry, and then every context of the hoop is READY, once the table operations that earlier hoops have left are
performed (log 6); a hoop that ends adds to DONE; an aborted one, which adds to it too (log 39), writes a record of cause 0x29.
A debugger attaches, stops, steps, writes and releases, the release of a context that trapped in its handler among it (log 64). -/
def Obligations.HoopEventResults : Prop :=
  ∀ (h n k v q i port seq scheduler : Nat) (data rec : BitVec 512) (b : List Byte) (pc : PCVal) (wsp : W32) (f : W64)
    (s : State) (x : Hoop) (l : Launch),
    let key := 512 * v + 64 * q + i
    let part := mergeLine ((mapGet s.hub.window key).getD 0) data 0 56
    let packet : Packet := ⟨port, seq, scheduler, s.hub.order⟩
    let rl : Launch := { launchOf rec.toNat with packet := some packet }
    let got := s.chargeLink rl.vf 80
    let c := s.ctx n k
    (∀ y, s.queue v q = some y → i < 64 →
      exec (.launchWindowWrite v q i 0 56 data) s = .next (s.modHub (fun u => { u with window := mapSet u.window key part })) ∧
      (y.held = [] → s.poison = [] → y.count < 64 → s.launchOk data.toNat = true → (launchOf data.toNat).queue = q → (launchOf data.toNat).vf = v →
        ∃ t, exec (.launchWindowWrite v q i 0 64 data) s = .next t ∧ t.mem = s.mem ∧
          ((mapGet (t.page v).consumed q).getD 0).getLsbD i = true ∧
          ∃ z, t.queue v q = some z ∧ z.records = y.records ++ [launchOf data.toNat]) ∧
      (y.held = [] → let d := launchOf data.toNat
        let u := ((s.modHub (fun u => { u with window := mapSet u.window key data })).setConsumed v q i false).mapRead d 16
        (u.launchOk data.toNat = true → d.queue = q → d.vf = v → exec (.launchWindowWrite v q i 0 64 data) s = .next (u.arrives d i)) ∧
        (¬(u.launchOk data.toNat = true ∧ d.queue = q ∧ d.vf = v) → exec (.launchWindowWrite v q i 0 64 data) s =
          .next ((u.badLaunch d.vf (0x8000 * v + 0x1000 * q + 64 * i)).setConsumed v q i true)))) ∧
    (rl.anyplace = true ∨ s.launchOk rec.toNat = false → exec (.launchPacket port seq scheduler rec) s =
      .next ((got.chargeLink rl.vf 32).send (.residency port seq 3 0x28 rl.vf s.hub.now rl.tag))) ∧
    (rl.vf < 384 → ((got.chargeLink rl.vf 32).usage rl.vf).linkb = (s.usage rl.vf).linkb + 112) ∧
    (∀ y, rl.anyplace = false → s.launchOk rec.toNat = true → s.queue rl.vf rl.queue = some y → s.packetBefore packet = false →
      y.count < 64 → y.held = [] → exec (.launchPacket port seq scheduler rec) s =
        .next (((got.modHub (fun u => { u with order := u.order + 1 })).enqueue rl).residency rl 1 0)) ∧
    (∀ y line rest, s.queue v q = some y → y.held = (line, l) :: rest → y.count < 64 → l.packet = none → line < 64 →
      exec (.heldLaunchEnqueue v q) s =
        .next (((s.modQueue v q (fun z => { z with held := rest })).enqueue l).setConsumed v q line true)) ∧
    (∀ u pa, let need := x.cores.filter (fun m => !s.segmentIn m x.record)
      s.hoop h = some x → x.state = .placed → need.head? = some n →
      s.enginePlace (engineOf n x.record.vf) accX x.record.code.toNat = (u, .inl pa) →
      ((∀ m ∈ need, u.engineBusy (tileOf m) [(pa, 4096)] 0 = []) →
        (u.segmentPoison pa = [] → exec (.segmentZeroLoad h) s = .next (need.foldl (fun t m => t.landSegment m 0 x.record.code x.record.vf pa) u)) ∧
        (u.segmentPoison pa ≠ [] → ∃ t, exec (.segmentZeroLoad h) s = .next t ∧ t.hoop h = none)) ∧
      ((∃ m ∈ need, u.engineBusy (tileOf m) [(pa, 4096)] 0 ≠ []) →
        ∃ t, exec (.segmentZeroLoad h) s = .next t ∧ t.mem = u.mem ∧ t.hoop h = some x)) ∧
    (∀ u pa, let t := State.landSegment u n 0 x.record.code x.record.vf pa
      t.mem = u.mem ∧ (t.core n).slot 0 = ⟨.landed, x.record.code, x.record.vf, pa, u.segmentWords pa, u.segmentPoison pa⟩ ∧
        ∀ j < 1024, (mapGet (u.segmentWords pa) j).getD 0 = BitVec.ofNat 32 (u.view (pa + 4 * j) 4)) ∧
    (s.hoop h = some x → x.state = .placed → (∀ m ∈ x.cores, s.segmentIn m x.record = true ∧ ∀ c ∈ (s.core m).ctxs, c.2.ops = []) →
      exec (.hoopStart h) s =
      .next ((x.cores.foldl (fun u m => u.startCore x m) s).modHoop h (fun y =>
        { y with state := .running, sliceEnd := s.hub.now + y.slice }))) ∧
    (n < 1536 → k < 16 → let t := s.startCtx x n k
      let rank := ((coreY n - x.oy) * x.record.w + (coreX n - x.ox)) * x.record.nctx + k
      let e := BitVec.ofNat 14 x.record.entry
      t.ctx n k = { Ctx.reset (coreInQuad n) k with st := .ready, pc := e, lastIssue := c.lastIssue, ops := c.ops, nputs := c.nputs } ∧
      let at' := { t with cur := ⟨n, k⟩ }
      at'.getS 1 = x.record.args ∧ at'.getS 2 = BitVec.ofNat 64 rank ∧
        at'.getS 3 = BitVec.ofNat 64 (x.record.w * x.record.h * x.record.nctx) ∧ at'.getP 6 = 0xFFFFFFFF ∧
        at'.flags = 0 ∧ at'.roundMode = 1) ∧
    (∀ u pa, s.hoop h = some x → x.state = .ending → (∀ m ∈ s.cores, ∀ y ∈ m.2.copies, y.2.hoop = some h → y.2.added = true) →
      s.enginePlace (hubOf x.record.vf) accRW.global x.record.done.toNat = (u, .inl pa) → isHbm pa = true → pa % 8 = 0 →
      u.poison = [] → u.refuses pa 3 = false →
      let added := (u.counterAdd 48 x.record.vf pa x.record.done.toNat 1).1
      (u.homeBusy [(pa, 8)] 3 (some 48) = false → exec (.doneAdd h) s =
        .next (added.modHub (fun y => { y with hoops := mapErase y.hoops h }))) ∧
      (u.homeBusy [(pa, 8)] 3 (some 48) = true → ∃ t, exec (.doneAdd h) s = .next t ∧ t.mem = u.mem ∧ t.hoop h = some x) ∧
      (u.takes pa 3 = true → NoHostWatch u → NoSuspended u pa → BitVec.ofNat 64 (added.peek pa 8) =
        BitVec.ofInt 64 (min ((BitVec.ofNat 64 (u.peek pa 8)).toInt + 1) (2 ^ 63 - 1)))) ∧
    ((s.quad q).fused = true → (∀ m ∈ quadCores q, ∀ y z, (s.core m).hoop = some y → s.hoop y = some z → z.state = .ending) →
      ∃ t, exec (.l1UnfusionComplete q) s = .next t ∧ (t.quad q).fused = false ∧ t.mem = s.mem ∧
        ∀ m ∈ quadCores q, (t.core m).l1 = [] ∧ (t.core m).hoop = none) ∧
    (s.hoop h = some x → x.state ≠ .ending → exec (.hoopAbort h) s =
      .next ((s.faultRecord x.record.vf 0x29 0 0 x.record.tag srcHub 0 0).stopHoop h x (x.state ≠ .placed))) ∧
    (s.hoop h = some x → exec (.debuggerAttach h) s = .next (s.modHoop h (fun y => { y with dbg := true })) ∧
      exec (.debuggerDetach h) s = .next (s.modHoop h (fun y => { y with dbg := false })) ∧
      (x.dbg = true → x.state = .running → exec (.debugFreeze h) s = .next (((s.stopAll h x (fun y => { y with stopDebug := true })).drainHoop
        h x).modHoop h (fun y => { y with frozenDbg := true }))) ∧
      (x.dbg = true → x.frozenDbg = true → exec (.debugThaw h) s = .next (((s.hoopCtxs h x).foldl (fun t y => t.debugRelease y.1 y.2)
        s).modHoop h (fun y => { y with frozenDbg := false })))) ∧
    (s.debugged n = true → (c.st ≠ .free → exec (.debugStop n k) s =
        .next (s.stopCtx n k (fun y => { y with stopDebug := true }))) ∧
      (c.st = .stopped →
        let freed (t : State) : State := (t.modCtx n k (fun y => { y with stopDebug := false, stopTrap := false })).releaseCtx n k
        exec (.debugRelease n k) s = .next (freed s) ∧
        exec (.debugStep n k) s = .next (freed (s.setFlagsOf n k (s.flagsOf n k ||| 0x400000))) ∧
        exec (.debugStateWrite n k (.pc pc)) s = .next (s.modCtx n k (fun y => { y with pc := pc })) ∧
        exec (.debugStateWrite n k (.wsp wsp)) s = .next (s.modCtx n k (fun y => { y with wsp := wsp })) ∧
        exec (.debugStateWrite n k (.flags f)) s = .next (s.setFlagsOf n k (keepFlags (s.flagsOf n k) f)) ∧
        (i + b.length ≤ 0x1400 → (∀ j < b.length, s.isReserved (s.wsOf n k + i + j) = false ∧
          s.isModeByte (s.wsOf n k + i + j) = false) → exec (.debugStateWrite n k (.bytes i b)) s = .next (s.store [(s.wsOf n k + i, b)]))))

/-- The section of a quad in the save area of its partition (R343). -/
def sectionOf (r : PartRecord) (q : Nat) : Nat := sectionAt r.save ((findPos (fun x => x = q) r.quads).getD 0)
/-- Where the record of a context lies in the save area (R343). -/
def recordOf (r : PartRecord) (n k : Nat) : Nat := sectionOf r (quadOf n) + 256 * (16 * coreInQuad n + k)
/-- The whole save area lies in HBM (R343), and names each quad once. -/
def AreaInHbm (r : PartRecord) : Prop :=
  (∀ a, r.save ≤ a → a < r.save + 0x100 + 0x248000 * r.quads.length → isHbm a = true) ∧ r.quads.Nodup ∧ ∀ q ∈ r.quads, q < 384

/-- R52 to R54, R346: launch queues. Every microsecond, once, charges each queue the cores of its hoops that run; a refill lifts
every queue by the same least number of weights that brings a pending one above 0; dispatch places the head launch of the first
queue, in ring order behind the one served last, that has a positive deficit and whose head has a place, and goes on while
there is one (a hoop that a slice expiry has stopped needs the save area for it, log 31); a slice that is over ends anew,
or asks for a switch of its hoop 1,000 ns ahead when its queue has no deficit left and another queue's head fits once the hoop
is gone; it waits while the save area is in use (log 31). That a charge which is not due leaves the state as it is is the
model's choice (DESIGN CHOICE, log 4). -/
def Obligations.QueueServiceResults : Prop :=
  ∀ (h v q p : Nat) (s : State) (x : Hoop) (y : LQueue) (l : Launch) (o : Nat × Nat),
    let sorted := s.hub.queues.Pairwise (fun a b => a.1 < b.1)
    let fit (r : Nat × LQueue) : Prop := ∃ l, r.2.records.head? = some l ∧ r.2.deficit > 0 ∧ s.areaFor p l = true ∧
      (s.origin l (fun _ => false)).isSome = true
    let last := (s.part p).served.getD 3072
    (s.hub.now % 1000 ≠ 0 ∨ s.hub.charged = s.hub.now → exec .deficitCharge s = .next s) ∧
    (s.hub.now % 1000 = 0 → s.hub.charged ≠ s.hub.now → ∃ u : State, exec .deficitCharge s = .next u.refillAll ∧ u.hub.charged = s.hub.now ∧
      u.mem = s.mem ∧ u.hub.hoops = s.hub.hoops ∧ (s.queue v q = some y → ∃ z, u.queue v q = some z ∧ z.records = y.records ∧
        z.deficit = y.deficit - (((s.hub.hoops.filter (fun e => e.2.runs && 8 * e.2.record.vf + e.2.record.queue == 8 * v + q)).map
          (fun e => e.2.record.w * e.2.record.h)).sum : Nat))) ∧
    ((∀ r ∈ s.ringOf p, r.2.records = []) ∨ (∃ r ∈ s.ringOf p, r.2.records ≠ [] ∧ r.2.deficit > 0) → s.refill p = s) ∧
    (sorted → (∃ r ∈ s.ringOf p, r.2.records ≠ []) → (∀ r ∈ s.ringOf p, r.2.weight ≥ 1 ∧ (r.2.records ≠ [] → r.2.deficit ≤ 0)) →
      ∃ k : Nat, 1 ≤ k ∧ (∀ r ∈ s.ringOf p, let lives : Prop := r.2.records ≠ [] ∨ s.queueRuns r.1 = true
          (lives → mapGet (s.refill p).hub.queues r.1 = some { r.2 with deficit := r.2.deficit + (64 * k * r.2.weight : Nat) }) ∧
          (¬lives → mapGet (s.refill p).hub.queues r.1 = some { r.2 with deficit := 0 })) ∧
        (∃ r ∈ s.ringOf p, r.2.records ≠ [] ∧ r.2.deficit + (64 * k * r.2.weight : Nat) > 0) ∧
        ∀ r ∈ s.ringOf p, r.2.records ≠ [] → r.2.deficit + (64 * (k - 1) * r.2.weight : Nat) ≤ 0) ∧
    (s.nextLaunch p = none ↔ ∀ r ∈ s.ringOf p, ¬fit r) ∧
    (∀ key, sorted → s.nextLaunch p = some (key, y, l, o) → (key, y) ∈ s.ringOf p ∧ y.records.head? = some l ∧ fit (key, y) ∧
      s.origin l (fun _ => false) = some o ∧ ∀ r ∈ s.ringOf p, fit r →
        (last < key ∧ (last < r.1 → key ≤ r.1)) ∨ (key ≤ last ∧ r.1 ≤ last ∧ key ≤ r.1)) ∧
    ((s.refill p).nextLaunch p = none → exec (.dispatch p) s = .next (s.refill p)) ∧
    (∀ key, sorted → (s.refill p).nextLaunch p = some (key, y, l, o) →
      exec (.dispatch p) s = exec (.dispatch p) ((s.refill p).placeHead (key / 8) (key % 8) y l o)) ∧
    (s.queue v q = some y → let t := s.placeHead v q y l o
      (∃ z, t.queue v q = some z ∧ z.records = y.records.tail ∧ z.deficit = y.deficit) ∧
      (t.part (s.vf v).record.part).served = some (8 * v + q) ∧ (∀ n ∈ rectCores o.1 o.2 l.w l.h, n < 1536 →
        (t.core n).hoop = some (l.hoop.getD s.hub.hoopNext)) ∧
      (l.hoop = none → ∃ z, t.hoop s.hub.hoopNext = some z ∧ z.state = .placed ∧ z.record = l ∧ (z.ox, z.oy) = o ∧
        z.slice = 1000 * y.slice ∧ t.hub.hoopNext = s.hub.hoopNext + 1)) ∧
    (s.hoop h = some x → x.state = .running → x.sliceEnd ≤ s.hub.now → let p := (s.vf x.record.vf).record.part
      let next := s.modHoop h (fun y => { y with sliceEnd := s.hub.now + y.slice })
      let other (r : Nat × LQueue) (l : Launch) (o : Nat × Nat) : Prop := r.1 ≠ 8 * x.record.vf + x.record.queue ∧
        r.2.records.head? = some l ∧ r.2.deficit > 0 ∧ s.origin l (fun n => (s.core n).hoop = some h) = some o
      ((s.part p).areaFree = false → exec (.sliceExpiry h) s = .next s) ∧
      ((s.part p).areaFree = true → s.displacer h x = none ∨ (∀ y, s.queue x.record.vf x.record.queue = some y → y.deficit > 0) →
        exec (.sliceExpiry h) s = .next next) ∧
      ((s.part p).areaFree = true → s.queue x.record.vf x.record.queue = some y → y.deficit ≤ 0 → s.displacer h x = some (l, o) →
        exec (.sliceExpiry h) s = .next (next.newGang p (Gang.request (s.hub.now + 1000)
          ((rectCores o.1 o.2 l.w l.h).map quadOf).dedup (some h)))) ∧
      (s.displacer h x = none ↔ ∀ r ∈ s.ringOf p, ∀ l o, ¬other r l o) ∧
      (s.displacer h x = some (l, o) → ∃ r ∈ s.ringOf p, other r l o))

/-- R255, R331, R341 to R346: a gang switch. A request less than 1,000 ns ahead, or while the save area is in use (log 31), is
refused. At its time the hoops of the partition stop, and only the hoop of a slice expiry. The save finishes what they have in
flight, writes COMMIT, the records of the contexts and, of a needed quad, the accumulator and the local memory, then scrubs the
needed quads, which leave the partition; poison ends it (R344). A pre-empted hoop is at the head of its queue again, and the
queue is charged from the stop on. The resume brings local memories and contexts back, and COMMIT is 0. What the save area
holds of a quad that another hoop shares is log 33. -/
def Obligations.GangSwitchResults : Prop :=
  ∀ (p time : Nat) (needed : List Nat) (s : State) (g : Gang),
    let pr := (s.part p).record
    (time < s.hub.now + 1000 ∨ (s.part p).areaFree = false → exec (.gangSwitchRequest p time needed) s = .next (s.send (.refused p))) ∧
    (s.hub.now + 1000 ≤ time → (s.part p).areaFree = true → ∃ t g, exec (.gangSwitchRequest p time needed) s = .next t ∧ t.mem = s.mem ∧
      (t.part p).gang = some g ∧ g.phase = .requested ∧ g.time = time ∧ g.slice = none ∧
      g.needed = pr.quads.filter (fun r => needed.isEmpty || needed.contains r)) ∧
    ((s.part p).gang = some g → g.phase = .requested →
      (s.hub.now < g.time → exec (.gangSwitchStop p) s = .next s) ∧
      (g.time ≤ s.hub.now → g.slice = none →
        ∃ t y, exec (.gangSwitchStop p) s = .next t ∧ (t.part p).gang = some y ∧ y.phase = .stopped ∧ y.start = s.hub.now ∧
          y.hoops = (s.hoopsOf p .running).map (fun r => r.1) ∧ (s.hoopsOf p .placed = [] →
            ∀ r ∈ s.hoopsOf p .running, ∀ d ∈ s.hoopCtxs r.1 r.2, (t.ctx d.1 d.2).st = .free ∨ (t.ctx d.1 d.2).st = .stopped)) ∧
      (∀ h, g.time ≤ s.hub.now → g.slice = some h →
        ((∀ r ∈ s.hoopsOf p .running, r.1 ≠ h) → exec (.gangSwitchStop p) s = .next (s.setGang p none)) ∧
        (∀ x, s.hoopsOf p .running = [(h, x)] → exec (.gangSwitchStop p) s =
          .next (((s.stopAll h x (fun y => { y with stopGang := true })).modHoop h (fun y => { y with state := .switched })).setGang p
            (some { g with phase := .stopped, hoops := [h], start := s.hub.now }))))) ∧
    ((s.part p).gang = some g → g.phase = .stopped →
      let quads := s.gangQuads p g
      let d := quads.foldl (fun t q => t.drainQuad q) ((s.gangHoops g).foldl (fun t x => t.drainHoop x.1 x.2) s)
      (∀ q ∈ quads, (d.quad q).ops = []) ∧
      (∀ x ∈ s.gangHoops g, ∀ c ∈ s.hoopCtxs x.1 x.2, (d.ctx c.1 c.2).stores = [] ∧ (d.ctx c.1 c.2).ldas = []) ∧
      (∃ t y, exec (.gangSwitchSave p) s = .next t ∧ (t.part p).gang = some y ∧ (y.phase = .saved ∨ y.phase = .failed)) ∧
      (AreaInHbm pr → (∀ q ∈ d.leasedQuads, q ∉ g.needed) → (∃ q ∈ g.needed, (d.savePoison (sectionOf pr q) q).isSome = true) →
        ∃ t y, exec (.gangSwitchSave p) s = .next t ∧ (t.part p).gang = some y ∧ y.phase = .failed ∧ y.hoops = [] ∧
          (∀ q ∈ pr.quads, (t.quad q).part = none) ∧ (∀ h x, d.hoop h = some x → (d.vf x.record.vf).record.part = p →
            x.state ≠ .ending → t.hoop h = none)) ∧
      (NoRings s → AreaInHbm pr → (∀ q ∈ g.needed, q ∈ pr.quads) → g.needed.Nodup → d.poison = [] → (∀ q ∈ d.leasedQuads, q ∉ g.needed) →
        (∀ q ∈ g.needed, (d.quad q).accPoison = [] ∧ (d.quad q).accMem.Pairwise (fun a b => a.1 < b.1) ∧
          ∀ e ∈ (d.quad q).accMem, e.1 < 0x10000) →
        (∀ q ∈ pr.quads, ∀ n ∈ quadCores q, ∀ k < 16, (d.ctx n k).pend.length ≤ 8) →
        ∃ t y, exec (.gangSwitchSave p) s = .next t ∧ (t.part p).gang = some y ∧ y.phase = .saved ∧ y.seq = (s.part p).seq + 1 ∧
          (t.part p).seq = (s.part p).seq + 1 ∧ t.peek pr.save 8 = 2 ^ 63 + ((s.part p).seq + 1).toNat ∧
          t.peek (pr.save + 8) 8 = g.time % 2 ^ 64 ∧
          (∀ q < 384, (t.peek (pr.save + 0x10) 48).testBit q = g.needed.contains q) ∧
          (∀ q ∈ pr.quads, ∀ n ∈ quadCores q, s.switches g n = true → ∀ k < 16, let a := recordOf pr n k
            let c := d.ctx n k
            t.peek a 4 = (if c.prior = .away ∧ c.st = .stopped then d.peek (d.wsOf n k + 0x1270) 4 else c.pc.toNat) ∧
            t.peek (a + 4) 4 = c.wsp.toNat ∧ t.peek (a + 8) 8 = (d.flagsOf n k).toNat ∧ t.peek (a + 0x10) 1 = c.priorCode ∧
            t.peek (a + 0x11) 1 = c.pend.length) ∧
          (∀ q ∈ g.needed, (∀ e < 0x10000, t.peek (sectionOf pr q + 0x6000 + 4 * e) 4 = ((mapGet (d.quad q).accMem e).getD 0).toNat) ∧
            (∀ off < Memory.localSize, t.byte (sectionOf pr q + 0x48000 + off) = d.byte (quadLocal q + off)) ∧
            (s.shared g q = false → ∀ off < Memory.localSize, t.byte (quadLocal q + off) = Memory.unlisted (quadLocal q + off)) ∧
            (g.slice = none → (t.quad q).part = none)) ∧
          (∀ h x z, g.slice = some h → g.hoops = [h] → d.hoop h = some x → d.queue x.record.vf x.record.queue = some z →
            ∃ (u : State) (w : LQueue), t = u.refill p ∧ u.queue x.record.vf x.record.queue = some w ∧
              w.records = { x.record with hoop := some h, packet := none } :: z.records ∧
              w.deficit = z.deficit - (x.record.w * x.record.h * ((s.hub.now - g.start) / 1000) : Nat)))) ∧
    (∀ g, (s.part p).gang = some g → g.phase = .stopped → g.hoops = [] → g.needed = [] →
      pr.quads = [] → ∃ t, exec (.gangSwitchSave p) s = .next t ∧
        t.peek pr.save 8 = 2 ^ 63 + ((s.part p).seq + 1).toNat ∧
        t.peek (pr.save + 8) 8 = g.time % 2 ^ 64 ∧ (t.part p).seq = (s.part p).seq + 1) ∧
    ((s.part p).gang = some g → (g.phase = .saved ∧ g.slice = none) ∨ (g.phase = .restoring ∧ g.time ≤ s.hub.now) → s.mayResume p g = true →
      (∀ a, s.resumePoison p g = some a → ∃ t y, exec (.resume p) s = .next t ∧ (t.part p).gang = some y ∧ y.phase = .failed) ∧
      (s.resumePoison p g = none → s.peek pr.save 8 ≠ 2 ^ 63 + g.seq.toNat → exec (.resume p) s = .next s) ∧
      (s.resumePoison p g = none → s.peek pr.save 8 = 2 ^ 63 + g.seq.toNat → ∃ t, exec (.resume p) s = .next t ∧ (t.part p).gang = none ∧
        (NoRings s → AreaInHbm pr → s.poison = [] → g.quads.Pairwise (fun a b => a.1 < b.1) → g.cores.Pairwise (fun a b => a.1 < b.1) →
          (∀ q ∈ g.quads, q.1 ∈ pr.quads ∧ (s.quad q.1).ops = [] ∧ ∀ n ∈ quadCores q.1, (s.core n).copies = []) →
          (∀ c ∈ g.cores, c.1 < 1536 ∧ (mapGet g.quads (quadOf c.1)).isSome = true ∧ ∀ k ∈ c.2.ctxs, k.1 < 16 ∧ k.2.pend = [] ∧
            k.2.migrate = false ∧ s.peek (recordOf pr c.1 k.1 + 0x11) 1 = 0) →
          (∀ x ∈ s.gangHoops g, x.2.crossed = [] ∧ x.2.records = [] ∧ ∀ n ∈ x.2.cores, (mapGet g.cores n).isSome = true) →
          t.peek pr.save 8 = 0 ∧
          (∀ q kept, mapGet g.quads q = some kept → (t.quad q).part = some p ∧ (t.quad q).vf = kept.vf ∧
            ∀ off < Memory.localSize,
              (∀ n k, ¬(t.wsOf n k + 0x1240 ≤ quadLocal q + off ∧ quadLocal q + off < t.wsOf n k + 0x1248)) →
              t.byte (quadLocal q + off) = s.byte (sectionOf pr q + 0x48000 + off)) ∧
          (∀ n k c x h z, mapGet g.cores n = some c → mapGet c.ctxs k = some x → c.hoop = some h → h ∈ g.hoops → s.hoop h = some z →
            n ∈ z.cores → k < z.record.nctx → x.prior ≠ .away → x.stopDebug = false → x.stopTrap = false →
            s.peek (recordOf pr n k + 0x10) 1 = 1 → (t.ctx n k).st = .ready ∧
              (t.ctx n k).pc = BitVec.ofNat 14 (s.peek (recordOf pr n k) 4) ∧
              (t.ctx n k).wsp = BitVec.ofNat 32 (s.peek (recordOf pr n k + 4) 4)))))


/-- R9, R17, R53, R270, R304, R324, R350 to R359, R366 to R382: the world outside the cores. Configuration takes effect where it
may, and is refused where it may not; a quad that changes its VF is scrubbed, once what its hoops have left in flight is
finished; the tick moves the vat, MELT.RFZ and FDUTY; a lease ends at LEASEEND and at an alarm; a rail moves by 10 mV toward
its vote; the register page and links ask for reports, register host waiters, read and write memory; a reset leaves the
machine at its reset state, on the firmware it verified. The model's choices: which way the vat's last unit rounds is a free
value (log 28); FDUTY of a quad with power is 1 at least (log 29); a range entry taken from another VF is invalid (log 34);
operations of links, their LINKB bytes and that one which meets a retry has no answer yet (log 35); what a VF's reset leaves
(log 52); a queue of weight 0 drops its records (log 68); memory after a reset reads as nothing written (log 2); a step that is
not due leaves the state as it is (DESIGN CHOICE, log 4). -/
def Obligations.HubEventResults : Prop :=
  ∀ (v p q n off port size va version requester token : Nat) (r : VfRecord) (pr : PartRecord) (data : W64)
    (nonce : BitVec 384) (energy : List (Nat × Nat)) (power cold : Nat) (operand compare : W64) (s : State),
    let rail := (s.tile p).railMv
    let change : Int := ((power : Int) - cold) * 2 ^ 24
    let image := s.hub.staged.getD s.hub.firmware
    let start (t : State) : State := t.modPage v (fun y => y.setWatch 3 data)
    -- configuration
    (s.vfRecordOk v r = true → s.vfIdle v = true ∨ sameVfRecord (s.vf v).record r = true →
      keepsMemory (.vfConfiguration v r) s (fun t => (t.vf v).record = r ∧ ∀ j < 8, ∀ w, w = (r.weights[j]?).getD 0 →
        (w = 0 → t.queue v j = none) ∧ (w ≠ 0 → ∃ y, t.queue v j = some y ∧ y.weight = w ∧ y.slice = (r.slices[j]?).getD 0))) ∧
    (s.vfRecordOk v r = false → exec (.vfConfiguration v r) s = .next (s.send (.refused v))) ∧
    (s.partRecordOk p pr = true → mapGet s.hub.parts p = none → (∀ x ∈ s.vfsOf p, s.vfIdle x = true) →
      ∃ t, exec (.partitionConfiguration p pr) s = .next t ∧
      (t.part p).record = { pr with quads := pr.quads.mergeSort (fun a b => a ≤ b) } ∧ ∀ j ∈ pr.quads, (t.quad j).part = some p) ∧
    (s.partRecordOk p pr = false → exec (.partitionConfiguration p pr) s = .next (s.send (.refused p))) ∧
    (q < 384 → v < 384 → (s.quad q).part = some (s.vf v).record.part → (mapGet s.hub.vfs v).isSome = true →
      (∀ m ∈ quadCores q, (s.core m).hoop = none) →
      ((s.quad q).vf = v → exec (.quadVfAssign q v) s = .next s) ∧
      ((s.quad q).vf ≠ v → (s.quadOps q).opsEnded q = false → exec (.quadVfAssign q v) s = .next (s.quadOps q)) ∧
      ((s.quad q).vf ≠ v → (s.quadOps q).opsEnded q = true → ∃ t, exec (.quadVfAssign q v) s = .next t ∧ (t.quad q).vf = v ∧
        (t.quad q).accMem = [] ∧ (t.quad q).ops = [] ∧ (∀ m ∈ quadCores q, ∀ c ∈ (t.core m).ctxs, c.2.ops = []) ∧
        (∀ a, quadLocal q ≤ a → a < quadLocal q + Memory.localSize → t.byte a = Memory.unlisted a) ∧
        (∀ e ∈ (t.tile (tileOfQuad q)).tlb, e.vf ≠ (s.quad q).vf) ∧
        ((s.quad q).ops = [] → (∀ m ∈ quadCores q, (s.core m).copies = [] ∧ ∀ c ∈ (s.core m).ctxs, c.2.ops = []) →
          ∀ a, ¬(quadLocal q ≤ a ∧ a < quadLocal q + Memory.localSize) → t.byte a = s.byte a))) ∧
    ((∃ m ∈ quadCores q, (s.core m).hoop ≠ none) → exec (.quadVfAssign q v) s = .next (s.send (.refused q))) ∧
    (n < 256 → v < 384 → (mapGet s.hub.ranges n).bind (fun x => x.vf) ≠ some v →
      ((∀ l ∈ s.toMove n, s.deferred l 13 none = false) → ∃ t, exec (.rangeTableConfiguration n v) s = .next t ∧ t.mem = s.mem ∧
        mapGet t.hub.ranges n = some ⟨0, 0, some v, none, []⟩) ∧
      ((∃ l ∈ s.toMove n, s.deferred l 13 none = true) → exec (.rangeTableConfiguration n v) s = .next s)) ∧
    -- power
    (s.tickDue = false → exec (.budgetTick power cold energy) s = .next s) ∧
    (s.tickDue = true → ∃ t, exec (.budgetTick power cold energy) s = .next t ∧
      (∃ d : Int, d * 2400000000 - change < 2400000000 ∧ change - d * 2400000000 < 2400000000 ∧
        t.hub.vat = min ((s.hub.vat : Int) + d).toNat (2 ^ 24)) ∧
      (∀ frac, frac = min (t.hub.vat * 65536 / 2 ^ 24) 0xFFFF → t.hub.frac = frac ∧
        t.hub.meltRfz = (if frac ≤ 0x6666 then false else if 0xE666 ≤ frac then true else s.hub.meltRfz)) ∧
      ∀ j < 384, ∀ d, d = (s.quad j).fduty → (t.quad j).fduty =
        if (s.quad j).part = none then 0 else if 2800 < power then max (d - 2) 1 else if 2700 ≤ power then max d 1 else min (d + 1) 16) ∧
    ((s.quad q).leased = true → (s.quad q).leaseEnd.toNat ≤ (s.tstamp (tileOfQuad q)).toNat →
      ∃ t, exec (.leaseExpiry q) s = .next t ∧ (t.quad q).leased = false ∧ (t.quad q).leaseEnd = 0 ∧ (t.quad q).holder = none) ∧
    (∃ t, exec .coolantAlarm s = .next t ∧ ∀ j, (t.quad j).leased = false) ∧
    (s.hub.now < (s.tile p).stepAt + 2000 → exec (.railStep p) s = .next s) ∧
    ((s.tile p).stepAt + 2000 ≤ s.hub.now → ∃ t, exec (.railStep p) s = .next t ∧ (t.tile p).railMv =
      if (s.tile p).phase = .rise then min (rail + 10) (s.vote p) else if (s.tile p).phase = .descent then max (rail - 10) (s.vote p)
      else rail) ∧
    ((s.tile p).phase = .hold → (s.tile p).holdEnd ≤ s.hub.now → ∃ t, exec (.railHoldExpiry p) s = .next t ∧
      (t.tile p).phase = if s.vote p < rail then .descent else .steady) ∧
    -- reset and firmware
    (∃ t, exec .deviceReset s = .next t ∧ t.mem = [] ∧ t.poison = [] ∧ t.cores = [] ∧ t.quads = [] ∧ t.tiles = [] ∧ t.hub = { Hub.reset with
      firmware := image, rollback := s.hub.rollback, started := Config.firmwareVerifies image && s.hub.rollback ≤ image }) ∧
    exec (.firmwareUpdate version) s = .next (s.modHub (fun h => { h with staged := some version })) ∧
    keepsMemory (.vfReset v) s (fun t => ∀ e ∈ t.hub.waits, e ∈ s.hub.waits ∧ (e.vf = v → ∀ x, e.waiter ≠ .host x)) ∧
    -- rings, host waiters, reports
    (s.ringHeld (ringNumber n) = [] → exec (.ringConsPoll n) s = .next s) ∧
    (∀ b, s.ringHeld (ringNumber n) = [b] → s.ringWrite (ringNumber n) b = none → exec (.ringConsPoll n) s = .next s) ∧
    (∀ b u moved, s.ringHeld (ringNumber n) = [b] → s.ringWrite (ringNumber n) b = some (u, moved) → s.hub.waits = [] →
      exec (.ringConsPoll n) s = .next (u.setRingHeld (ringNumber n) [])) ∧
    (∀ e, e = hostEntry v ((start s).page v).hwatch →
      (s.waitsOf v ≥ (s.vf v).record.wwq → keepsMemory (.hwatchCommit v data) s (fun t => (t.page v).hwstat = true ∧ t.hub.waits = s.hub.waits)) ∧
      (s.waitsOf v < (s.vf v).record.wwq → e.mode ≠ 1 → keepsMemory (.hwatchCommit v data) s (fun t =>
        (t.page v).hwstat = false ∧ t.hub.waits = s.hub.waits ++ [e]))) ∧
    keepsMemory (.hcancelWrite v token) s (fun t => ∀ e ∈ t.hub.waits, e ∈ s.hub.waits ∧ ¬(e.vf = v ∧ e.waiter = .host (token % 2 ^ 15))) ∧
    ((∃ e ∈ s.hub.reports, e.dest = requester) → exec (.reportRequest v requester) s = .next s) ∧
    (s.hub.reports = [] → keepsMemory (.reportRequest v requester) s (fun t => (t.page requester).done = false ∧
      t.hub.reports = [⟨v, requester, some (s.page requester).nonce⟩])) ∧
    keepsMemory (.linkReportRequest port v nonce) s (fun t => t.hub.reports = s.hub.reports ++ [⟨v, 1000 + port, some nonce⟩] ∧
      (v < 384 → (t.usage v).linkb = (s.usage v).linkb + 50)) ∧
    (∀ e, s.hub.reports = [e] → e.dest < 1000 → keepsMemory .usageReportComplete s (fun t => t.hub.reports = [] ∧
      (t.page e.dest).done = true ∧ (t.page e.dest).report.length = 272 ∧ (t.vf e.vf).report = (s.vf e.vf).report + 1)) ∧
    (off < 0x30 → off % 8 = 0 → keepsMemory (.registerPageWrite v off data) s (fun t => (t.page v).nonce.extractLsb' (8 * off) 64 = data)) ∧
    (data.getLsbD 0 = true → exec (.registerPageWrite v 0x30 data) s = exec (.reportRequest v v) s) ∧
    exec (.registerPageWrite v 0x58 data) s = exec (.hwatchCommit v data) s ∧
    exec (.registerPageWrite v 0x68 data) s = exec (.hcancelWrite v (data.toNat % 2 ^ 15)) s ∧
    -- links
    (∀ e, s.walk v va = .leaf e → e.vft = v → ∀ pa, pa = e.frame + (va - e.base) →
      hostRun pa size = true → size = 4 ∨ size = 8 → pa % size = 0 → s.poison = [] → NoHostWatch s →
      (s.homeBusy [(pa, size)] 5 (some 48) = false → ∃ t, exec (.linkMemoryOperation port v 0 va size operand compare) s = .next t ∧
        t.mem = s.mem ∧ t.hub.out = .link port (BitVec.ofNat 64 (s.view pa size)) false :: s.hub.out ∧
        (v < 384 → (t.usage v).linkb = (s.usage v).linkb + size)) ∧
      (s.homeBusy [(pa, size)] 6 (some 48) = false → s.refuses pa 6 = false → s.takes pa 6 = true →
        ∃ t, exec (.linkMemoryOperation port v 1 va size operand compare) s = .next t ∧
        t.peek pa size = operand.toNat % 256 ^ size ∧ (∀ a, ¬(pa ≤ a ∧ a < pa + size) → t.byte a = s.byte a) ∧
        t.hub.out = .link port 0 false :: s.hub.out ∧ (v < 384 → (t.usage v).linkb = (s.usage v).linkb + size)) ∧
      (∀ op, 2 ≤ op → op ≤ 10 → s.homeBusy [(pa, size)] 7 (some 48) = false → s.refuses pa 7 = false → s.takes pa 7 = true →
        NoSuspended s (pa / 8 * 8) → ∃ t, exec (.linkMemoryOperation port v op va size operand compare) s = .next t ∧
        t.peek pa size = amoNew size (op - 2) (s.view pa size) (operand.toNat % 256 ^ size) (compare.toNat % 256 ^ size) ∧
        (∀ a, ¬(pa ≤ a ∧ a < pa + size) → t.byte a = s.byte a) ∧
        t.hub.out = .link port (BitVec.ofNat 64 (s.view pa size)) false :: s.hub.out) ∧
      ∀ op, s.homeBusy [(pa, size)] (if op = 0 then 5 else if op = 1 then 6 else 7) (some 48) = true → ∃ t,
        exec (.linkMemoryOperation port v op va size operand compare) s = .next t ∧ t.mem = s.mem ∧ t.hub.out = s.hub.out) ∧
    ((∀ e, s.walk v va = .leaf e → e.vft ≠ v) → ∀ op, exec (.linkMemoryOperation port v op va size operand compare) s =
      .next (s.send (.link port 0 true)))
end

