-- ==== Sys2Proof/Laws/Memory.lean ====
section
/-!
SUPPORT. Laws of sparse maps and of byte memory: read after write, the canonical form, little-endian words.
-/

namespace Sys2Proof.Machine

/-! Sparse maps. -/

@[simp] theorem mapGet_nil {α : Type} (k : Nat) : mapGet ([] : Map α) k = none := rfl

theorem mapGet_mapSet_same {α : Type} (m : Map α) (k : Nat) (v : α) : mapGet (mapSet m k v) k = some v := by
  induction m with
  | nil => simp [mapSet, mapGet]
  | cons e t ih =>
    obtain ⟨j, w⟩ := e
    unfold mapSet
    split
    · simp [mapGet]
    · split
      · simp [mapGet]
      · simp [mapGet, *]

theorem mapGet_mapSet_other {α : Type} (m : Map α) (k x : Nat) (v : α) (h : x ≠ k) :
    mapGet (mapSet m k v) x = mapGet m x := by
  induction m with
  | nil => simp [mapSet, mapGet, Ne.symm h]
  | cons e t ih =>
    obtain ⟨j, w⟩ := e
    unfold mapSet
    split
    · simp [mapGet, Ne.symm h]
    · split
      · subst_vars; simp [mapGet, Ne.symm h]
      · simp [mapGet, ih]

/-- Reading a map after one write. -/
theorem mapGet_mapSet {α : Type} (m : Map α) (k x : Nat) (v : α) :
    mapGet (mapSet m k v) x = if x = k then some v else mapGet m x := by
  split
  · subst_vars; exact mapGet_mapSet_same m _ v
  · exact mapGet_mapSet_other m k x v ‹_›

theorem mapSet_mapSet {α : Type} (m : Map α) (k : Nat) (v w : α) : mapSet (mapSet m k v) k w = mapSet m k w := by
  induction m with
  | nil => simp [mapSet]
  | cons e r ih =>
    obtain ⟨a, b⟩ := e
    by_cases h1 : k < a
    · simp [mapSet, h1]
    · by_cases h2 : a = k
      · simp [mapSet, h2]
      · simp [mapSet, h1, h2, ih]

theorem mapGet_filter_key {α : Type} (m : Map α) (p : Nat → Bool) (x : Nat) :
    mapGet (m.filter (fun e => p e.1)) x = if p x then mapGet m x else none := by
  induction m with
  | nil => simp
  | cons e t ih =>
    obtain ⟨j, w⟩ := e
    by_cases hx : j = x
    · subst hx; by_cases hp : p j <;> simp [mapGet, hp, ih]
    · by_cases hp : p j <;> simp [mapGet, hp, ih, hx]

/-- Reading a map after an erasure. -/
theorem mapGet_mapErase {α : Type} (m : Map α) (k x : Nat) :
    mapGet (mapErase m k) x = if x = k then none else mapGet m x := by
  have h := mapGet_filter_key m (fun j => j != k) x
  simp only [mapErase, h]
  by_cases hx : x = k <;> simp [hx]

/-! Bytes. -/

namespace Memory

@[simp] theorem read_write_same (m : List Host.Cell) (a : Nat) (b : Byte) : read (write m a b) a = b := by
  unfold read write
  split
  · simp [mapGet_mapErase, *]
  · simp [mapGet_mapSet]

theorem read_write_other (m : List Host.Cell) (a x : Nat) (b : Byte) (h : x ≠ a) :
    read (write m a b) x = read m x := by
  unfold read write
  split
  · simp [mapGet_mapErase, h]
  · simp [mapGet_mapSet, h]

/-- A byte after one write. -/
theorem read_write (m : List Host.Cell) (a x : Nat) (b : Byte) :
    read (write m a b) x = if x = a then b else read m x := by
  split
  · subst_vars; simp
  · exact read_write_other m a x b ‹_›

/-- A byte outside the bytes written is as it was. -/
theorem read_writeBytes_other (bs : List Byte) (m : List Host.Cell) (a x : Nat)
    (h : x < a ∨ a + bs.length ≤ x) : read (writeBytes m a bs) x = read m x := by
  induction bs generalizing m a with
  | nil => rfl
  | cons b t ih =>
    simp only [List.length_cons] at h
    simp only [writeBytes]
    rw [ih _ _ (by omega), read_write_other _ _ _ _ (by omega)]

/-- A byte written reads as written. -/
theorem read_writeBytes_in (bs : List Byte) (m : List Host.Cell) (a i : Nat) (h : i < bs.length) :
    read (writeBytes m a bs) (a + i) = bs[i] := by
  induction bs generalizing m a i with
  | nil => simp at h
  | cons b t ih =>
    simp only [writeBytes]
    cases i with
    | zero => rw [read_writeBytes_other _ _ _ _ (by omega)]; simp
    | succ j =>
      have := ih (write m a b) (a + 1) j (by simpa using h)
      rw [show a + (j + 1) = a + 1 + j by omega, this]; simp

theorem length_readBytes (m : List Host.Cell) (n a : Nat) : (readBytes m a n).length = n := by
  induction n generalizing a with
  | zero => rfl
  | succ n ih => simp [readBytes, ih]

/-- Bytes written read back. -/
theorem readBytes_writeBytes_same (bs : List Byte) (m : List Host.Cell) (a : Nat) :
    readBytes (writeBytes m a bs) a bs.length = bs := by
  induction bs generalizing m a with
  | nil => rfl
  | cons b t ih =>
    simp only [List.length_cons, readBytes, writeBytes]
    rw [ih, read_writeBytes_other _ _ _ _ (by omega)]; simp

/-- Bytes that a write does not meet read as before. -/
theorem readBytes_writeBytes_other (bs : List Byte) (m : List Host.Cell) (a n x : Nat)
    (h : x + n ≤ a ∨ a + bs.length ≤ x) : readBytes (writeBytes m a bs) x n = readBytes m x n := by
  induction n generalizing x with
  | zero => rfl
  | succ n ih =>
    simp only [readBytes]
    rw [ih (x + 1) (by omega), read_writeBytes_other _ _ _ _ (by omega)]

/-! The canonical form. -/

theorem rising_cons {c : Host.Cell} {m : List Host.Cell} :
    rising (c :: m) = true ↔ (∀ e ∈ m, c.1 < e.1) ∧ rising m = true := by
  induction m generalizing c with
  | nil => simp [rising]
  | cons d t ih =>
    simp only [rising, Bool.and_eq_true, decide_eq_true_eq, List.mem_cons, forall_eq_or_imp]
    constructor
    · rintro ⟨h1, h2⟩
      exact ⟨⟨h1, fun e he => Nat.lt_trans h1 ((ih.mp h2).1 e he)⟩, h2⟩
    · rintro ⟨⟨h1, -⟩, h2⟩
      exact ⟨h1, h2⟩

theorem rising_filter (m : List Host.Cell) (p : Host.Cell → Bool) (h : rising m = true) :
    rising (m.filter p) = true := by
  induction m with
  | nil => rfl
  | cons c t ih =>
    rw [rising_cons] at h
    rw [List.filter_cons]
    split
    · exact rising_cons.mpr ⟨fun e he => h.1 e (List.mem_of_mem_filter he), ih h.2⟩
    · exact ih h.2

theorem mem_mapSet {α : Type} {m : Map α} {k : Nat} {v : α} {e : Nat × α} (h : e ∈ mapSet m k v) :
    e = (k, v) ∨ e ∈ m := by
  induction m with
  | nil => simpa [mapSet] using h
  | cons c t ih =>
    obtain ⟨j, w⟩ := c
    unfold mapSet at h
    split at h
    · simpa using h
    · split at h
      · rcases List.mem_cons.mp h with h | h
        · exact .inl h
        · exact .inr (List.mem_cons_of_mem _ h)
      · rcases List.mem_cons.mp h with h | h
        · exact .inr (by simp [h])
        · rcases ih h with h | h
          · exact .inl h
          · exact .inr (List.mem_cons_of_mem _ h)

theorem rising_mapSet (m : List Host.Cell) (k : Nat) (v : Byte) (h : rising m = true) :
    rising (mapSet m k v) = true := by
  induction m with
  | nil => rfl
  | cons c t ih =>
    obtain ⟨j, w⟩ := c
    rw [rising_cons] at h
    unfold mapSet
    split
    · next hk =>
      exact rising_cons.mpr ⟨fun e he => by
        rcases List.mem_cons.mp he with he | he
        · simpa [he] using hk
        · exact Nat.lt_trans hk (h.1 e he), rising_cons.mpr h⟩
    · split
      · next hk => subst hk; exact rising_cons.mpr h
      · next hk hj =>
        refine rising_cons.mpr ⟨fun e he => ?_, ih h.2⟩
        rcases mem_mapSet he with he | he
        · subst he; simp only; omega
        · exact h.1 e he

/-- The canonical form, unfolded. -/
theorem wf_iff (m : List Host.Cell) : wf m = true ↔ rising m = true ∧ ∀ c ∈ m, c.2 ≠ unlisted c.1 := by
  simp [wf, List.all_eq_true]

/-- Taking entries out keeps the canonical form. -/
theorem wf_filter (m : List Host.Cell) (p : Host.Cell → Bool) (h : wf m = true) : wf (m.filter p) = true := by
  rw [wf_iff] at h ⊢
  exact ⟨rising_filter m p h.1, fun c hc => h.2 c (List.mem_of_mem_filter hc)⟩

/-- A write keeps the canonical form. -/
theorem wf_write (m : List Host.Cell) (a : Nat) (b : Byte) (h : wf m = true) : wf (write m a b) = true := by
  unfold write
  split
  · exact wf_filter m _ h
  · next hb =>
    rw [wf_iff] at h ⊢
    refine ⟨rising_mapSet m a b h.1, fun c hc => ?_⟩
    rcases mem_mapSet hc with hc | hc
    · subst hc; exact hb
    · exact h.2 c hc

/-- A write of several bytes keeps the canonical form. -/
theorem wf_writeBytes (bs : List Byte) (m : List Host.Cell) (a : Nat) (h : wf m = true) :
    wf (writeBytes m a bs) = true := by
  induction bs generalizing m a with
  | nil => exact h
  | cons b t ih => exact ih _ _ (wf_write m a b h)

/-- One write of several runs keeps the canonical form. -/
theorem wf_runs (runs : List (Nat × List Byte)) (m : List Host.Cell) (h : wf m = true) :
    wf (runs.foldl (fun m r => writeBytes m r.1 r.2) m) = true := by
  induction runs generalizing m with
  | nil => exact h
  | cons r t ih => exact ih _ (wf_writeBytes _ _ _ h)

/-- A byte that no run meets reads as before. -/
theorem read_runs_other (runs : List (Nat × List Byte)) (m : List Host.Cell) (x : Nat)
    (h : ∀ r ∈ runs, x < r.1 ∨ r.1 + r.2.length ≤ x) :
    read (runs.foldl (fun m r => writeBytes m r.1 r.2) m) x = read m x := by
  induction runs generalizing m with
  | nil => rfl
  | cons r t ih =>
    simp only [List.foldl_cons]
    rw [ih _ (fun q hq => h q (List.mem_cons_of_mem _ hq)),
      read_writeBytes_other _ _ _ _ (h r List.mem_cons_self)]

/-- Memory that lists nothing is in the canonical form. -/
@[simp] theorem wf_nil : wf [] = true := rfl
@[simp] theorem read_nil (a : Nat) : read [] a = unlisted a := rfl

end Memory

/-! Little-endian words. -/

@[simp] theorem length_toLE (n v : Nat) : (toLE n v).length = n := by
  induction n generalizing v with
  | zero => rfl
  | succ n ih => simp [toLE, ih]

/-- A number's low n bytes, read back. -/
theorem leNat_toLE (n v : Nat) : leNat (toLE n v) = v % 256 ^ n := by
  induction n generalizing v with
  | zero => simp [toLE, leNat, Nat.mod_one]
  | succ n ih =>
    have h : (256 : Nat) ^ (n + 1) = 256 * 256 ^ n := by rw [Nat.pow_succ, Nat.mul_comm]
    rw [h, Nat.mod_mul]
    simp [toLE, leNat, ih]

theorem leNat_lt (l : List Byte) : leNat l < 256 ^ l.length := by
  induction l with
  | nil => simp [leNat]
  | cons b t ih =>
    simp only [leNat, List.length_cons, Nat.pow_succ]
    have := b.isLt
    omega

/-- Bytes are the little-endian form of their number. -/
theorem toLE_leNat (l : List Byte) : toLE l.length (leNat l) = l := by
  induction l with
  | nil => rfl
  | cons b t ih =>
    simp only [List.length_cons, toLE, leNat]
    have hb := b.isLt
    rw [show (b.toNat + 256 * leNat t) / 256 = leNat t by omega, ih]
    congr 1
    apply BitVec.eq_of_toNat_eq
    simp only [BitVec.toNat_ofNat]
    omega

end Sys2Proof.Machine
end

