-- ==== Sys2Proof/Laws/State.lean ====
section
/-!
SUPPORT. What one update of the state leaves of each field: one lemma for each field and update, so that no proof
unfolds a record update; and reading a unit after a change of one.
-/

namespace Sys2Proof.Machine

variable (s : State)

/-! setCore. -/

@[simp] theorem State.setCore_mem (n : Nat) (c : Core) : (s.setCore n c).mem = s.mem := rfl
@[simp] theorem State.setCore_poison (n : Nat) (c : Core) : (s.setCore n c).poison = s.poison := rfl
@[simp] theorem State.setCore_cores (n : Nat) (c : Core) : (s.setCore n c).cores = mapSet s.cores n c := rfl
@[simp] theorem State.setCore_quads (n : Nat) (c : Core) : (s.setCore n c).quads = s.quads := rfl
@[simp] theorem State.setCore_tiles (n : Nat) (c : Core) : (s.setCore n c).tiles = s.tiles := rfl
@[simp] theorem State.setCore_hub (n : Nat) (c : Core) : (s.setCore n c).hub = s.hub := rfl
@[simp] theorem State.setCore_cur (n : Nat) (c : Core) : (s.setCore n c).cur = s.cur := rfl
@[simp] theorem State.setCore_schedule (n : Nat) (c : Core) : (s.setCore n c).schedule = s.schedule := rfl
@[simp] theorem State.setCore_choices (n : Nat) (c : Core) : (s.setCore n c).choices = s.choices := rfl
@[simp] theorem State.setCore_draws (n : Nat) (c : Core) : (s.setCore n c).draws = s.draws := rfl
@[simp] theorem State.setCore_wrote (n : Nat) (c : Core) : (s.setCore n c).wrote = s.wrote := rfl

/-! modCore. -/

@[simp] theorem State.modCore_mem (n : Nat) (f : Core → Core) : (s.modCore n f).mem = s.mem := rfl
@[simp] theorem State.modCore_poison (n : Nat) (f : Core → Core) : (s.modCore n f).poison = s.poison := rfl
@[simp] theorem State.modCore_cores (n : Nat) (f : Core → Core) : (s.modCore n f).cores = mapSet s.cores n (f (s.core n)) := rfl
@[simp] theorem State.modCore_quads (n : Nat) (f : Core → Core) : (s.modCore n f).quads = s.quads := rfl
@[simp] theorem State.modCore_tiles (n : Nat) (f : Core → Core) : (s.modCore n f).tiles = s.tiles := rfl
@[simp] theorem State.modCore_hub (n : Nat) (f : Core → Core) : (s.modCore n f).hub = s.hub := rfl
@[simp] theorem State.modCore_cur (n : Nat) (f : Core → Core) : (s.modCore n f).cur = s.cur := rfl
@[simp] theorem State.modCore_schedule (n : Nat) (f : Core → Core) : (s.modCore n f).schedule = s.schedule := rfl
@[simp] theorem State.modCore_choices (n : Nat) (f : Core → Core) : (s.modCore n f).choices = s.choices := rfl
@[simp] theorem State.modCore_draws (n : Nat) (f : Core → Core) : (s.modCore n f).draws = s.draws := rfl
@[simp] theorem State.modCore_wrote (n : Nat) (f : Core → Core) : (s.modCore n f).wrote = s.wrote := rfl

/-! setCtx. -/

@[simp] theorem State.setCtx_mem (n k : Nat) (x : Ctx) : (s.setCtx n k x).mem = s.mem := rfl
@[simp] theorem State.setCtx_poison (n k : Nat) (x : Ctx) : (s.setCtx n k x).poison = s.poison := rfl
@[simp] theorem State.setCtx_quads (n k : Nat) (x : Ctx) : (s.setCtx n k x).quads = s.quads := rfl
@[simp] theorem State.setCtx_tiles (n k : Nat) (x : Ctx) : (s.setCtx n k x).tiles = s.tiles := rfl
@[simp] theorem State.setCtx_hub (n k : Nat) (x : Ctx) : (s.setCtx n k x).hub = s.hub := rfl
@[simp] theorem State.setCtx_cur (n k : Nat) (x : Ctx) : (s.setCtx n k x).cur = s.cur := rfl
@[simp] theorem State.setCtx_schedule (n k : Nat) (x : Ctx) : (s.setCtx n k x).schedule = s.schedule := rfl
@[simp] theorem State.setCtx_choices (n k : Nat) (x : Ctx) : (s.setCtx n k x).choices = s.choices := rfl
@[simp] theorem State.setCtx_draws (n k : Nat) (x : Ctx) : (s.setCtx n k x).draws = s.draws := rfl
@[simp] theorem State.setCtx_wrote (n k : Nat) (x : Ctx) : (s.setCtx n k x).wrote = s.wrote := rfl

/-! modCtx. -/

@[simp] theorem State.modCtx_mem (n k : Nat) (f : Ctx → Ctx) : (s.modCtx n k f).mem = s.mem := rfl
@[simp] theorem State.modCtx_poison (n k : Nat) (f : Ctx → Ctx) : (s.modCtx n k f).poison = s.poison := rfl
@[simp] theorem State.modCtx_quads (n k : Nat) (f : Ctx → Ctx) : (s.modCtx n k f).quads = s.quads := rfl
@[simp] theorem State.modCtx_tiles (n k : Nat) (f : Ctx → Ctx) : (s.modCtx n k f).tiles = s.tiles := rfl
@[simp] theorem State.modCtx_hub (n k : Nat) (f : Ctx → Ctx) : (s.modCtx n k f).hub = s.hub := rfl
@[simp] theorem State.modCtx_cur (n k : Nat) (f : Ctx → Ctx) : (s.modCtx n k f).cur = s.cur := rfl
@[simp] theorem State.modCtx_schedule (n k : Nat) (f : Ctx → Ctx) : (s.modCtx n k f).schedule = s.schedule := rfl
@[simp] theorem State.modCtx_choices (n k : Nat) (f : Ctx → Ctx) : (s.modCtx n k f).choices = s.choices := rfl
@[simp] theorem State.modCtx_draws (n k : Nat) (f : Ctx → Ctx) : (s.modCtx n k f).draws = s.draws := rfl
@[simp] theorem State.modCtx_wrote (n k : Nat) (f : Ctx → Ctx) : (s.modCtx n k f).wrote = s.wrote := rfl

/-! modCx. -/

@[simp] theorem State.modCx_mem (f : Ctx → Ctx) : (s.modCx f).mem = s.mem := rfl
@[simp] theorem State.modCx_poison (f : Ctx → Ctx) : (s.modCx f).poison = s.poison := rfl
@[simp] theorem State.modCx_quads (f : Ctx → Ctx) : (s.modCx f).quads = s.quads := rfl
@[simp] theorem State.modCx_tiles (f : Ctx → Ctx) : (s.modCx f).tiles = s.tiles := rfl
@[simp] theorem State.modCx_hub (f : Ctx → Ctx) : (s.modCx f).hub = s.hub := rfl
@[simp] theorem State.modCx_cur (f : Ctx → Ctx) : (s.modCx f).cur = s.cur := rfl
@[simp] theorem State.modCx_schedule (f : Ctx → Ctx) : (s.modCx f).schedule = s.schedule := rfl
@[simp] theorem State.modCx_choices (f : Ctx → Ctx) : (s.modCx f).choices = s.choices := rfl
@[simp] theorem State.modCx_draws (f : Ctx → Ctx) : (s.modCx f).draws = s.draws := rfl
@[simp] theorem State.modCx_wrote (f : Ctx → Ctx) : (s.modCx f).wrote = s.wrote := rfl

/-! modSlot. -/

@[simp] theorem State.modSlot_mem (n k : Nat) (f : Slot → Slot) : (s.modSlot n k f).mem = s.mem := rfl
@[simp] theorem State.modSlot_poison (n k : Nat) (f : Slot → Slot) : (s.modSlot n k f).poison = s.poison := rfl
@[simp] theorem State.modSlot_quads (n k : Nat) (f : Slot → Slot) : (s.modSlot n k f).quads = s.quads := rfl
@[simp] theorem State.modSlot_tiles (n k : Nat) (f : Slot → Slot) : (s.modSlot n k f).tiles = s.tiles := rfl
@[simp] theorem State.modSlot_hub (n k : Nat) (f : Slot → Slot) : (s.modSlot n k f).hub = s.hub := rfl
@[simp] theorem State.modSlot_cur (n k : Nat) (f : Slot → Slot) : (s.modSlot n k f).cur = s.cur := rfl
@[simp] theorem State.modSlot_schedule (n k : Nat) (f : Slot → Slot) : (s.modSlot n k f).schedule = s.schedule := rfl
@[simp] theorem State.modSlot_choices (n k : Nat) (f : Slot → Slot) : (s.modSlot n k f).choices = s.choices := rfl
@[simp] theorem State.modSlot_draws (n k : Nat) (f : Slot → Slot) : (s.modSlot n k f).draws = s.draws := rfl
@[simp] theorem State.modSlot_wrote (n k : Nat) (f : Slot → Slot) : (s.modSlot n k f).wrote = s.wrote := rfl

/-! modChan. -/

@[simp] theorem State.modChan_mem (n k : Nat) (f : Chan → Chan) : (s.modChan n k f).mem = s.mem := rfl
@[simp] theorem State.modChan_poison (n k : Nat) (f : Chan → Chan) : (s.modChan n k f).poison = s.poison := rfl
@[simp] theorem State.modChan_quads (n k : Nat) (f : Chan → Chan) : (s.modChan n k f).quads = s.quads := rfl
@[simp] theorem State.modChan_tiles (n k : Nat) (f : Chan → Chan) : (s.modChan n k f).tiles = s.tiles := rfl
@[simp] theorem State.modChan_hub (n k : Nat) (f : Chan → Chan) : (s.modChan n k f).hub = s.hub := rfl
@[simp] theorem State.modChan_cur (n k : Nat) (f : Chan → Chan) : (s.modChan n k f).cur = s.cur := rfl
@[simp] theorem State.modChan_schedule (n k : Nat) (f : Chan → Chan) : (s.modChan n k f).schedule = s.schedule := rfl
@[simp] theorem State.modChan_choices (n k : Nat) (f : Chan → Chan) : (s.modChan n k f).choices = s.choices := rfl
@[simp] theorem State.modChan_draws (n k : Nat) (f : Chan → Chan) : (s.modChan n k f).draws = s.draws := rfl
@[simp] theorem State.modChan_wrote (n k : Nat) (f : Chan → Chan) : (s.modChan n k f).wrote = s.wrote := rfl

/-! modEntry. -/

@[simp] theorem State.modEntry_mem (n k : Nat) (f : JEntry → JEntry) : (s.modEntry n k f).mem = s.mem := rfl
@[simp] theorem State.modEntry_poison (n k : Nat) (f : JEntry → JEntry) : (s.modEntry n k f).poison = s.poison := rfl
@[simp] theorem State.modEntry_quads (n k : Nat) (f : JEntry → JEntry) : (s.modEntry n k f).quads = s.quads := rfl
@[simp] theorem State.modEntry_tiles (n k : Nat) (f : JEntry → JEntry) : (s.modEntry n k f).tiles = s.tiles := rfl
@[simp] theorem State.modEntry_hub (n k : Nat) (f : JEntry → JEntry) : (s.modEntry n k f).hub = s.hub := rfl
@[simp] theorem State.modEntry_cur (n k : Nat) (f : JEntry → JEntry) : (s.modEntry n k f).cur = s.cur := rfl
@[simp] theorem State.modEntry_schedule (n k : Nat) (f : JEntry → JEntry) : (s.modEntry n k f).schedule = s.schedule := rfl
@[simp] theorem State.modEntry_choices (n k : Nat) (f : JEntry → JEntry) : (s.modEntry n k f).choices = s.choices := rfl
@[simp] theorem State.modEntry_draws (n k : Nat) (f : JEntry → JEntry) : (s.modEntry n k f).draws = s.draws := rfl
@[simp] theorem State.modEntry_wrote (n k : Nat) (f : JEntry → JEntry) : (s.modEntry n k f).wrote = s.wrote := rfl

/-! setQuad. -/

@[simp] theorem State.setQuad_mem (q : Nat) (x : Quad) : (s.setQuad q x).mem = s.mem := rfl
@[simp] theorem State.setQuad_poison (q : Nat) (x : Quad) : (s.setQuad q x).poison = s.poison := rfl
@[simp] theorem State.setQuad_cores (q : Nat) (x : Quad) : (s.setQuad q x).cores = s.cores := rfl
@[simp] theorem State.setQuad_quads (q : Nat) (x : Quad) : (s.setQuad q x).quads = mapSet s.quads q x := rfl
@[simp] theorem State.setQuad_tiles (q : Nat) (x : Quad) : (s.setQuad q x).tiles = s.tiles := rfl
@[simp] theorem State.setQuad_hub (q : Nat) (x : Quad) : (s.setQuad q x).hub = s.hub := rfl
@[simp] theorem State.setQuad_cur (q : Nat) (x : Quad) : (s.setQuad q x).cur = s.cur := rfl
@[simp] theorem State.setQuad_schedule (q : Nat) (x : Quad) : (s.setQuad q x).schedule = s.schedule := rfl
@[simp] theorem State.setQuad_choices (q : Nat) (x : Quad) : (s.setQuad q x).choices = s.choices := rfl
@[simp] theorem State.setQuad_draws (q : Nat) (x : Quad) : (s.setQuad q x).draws = s.draws := rfl
@[simp] theorem State.setQuad_wrote (q : Nat) (x : Quad) : (s.setQuad q x).wrote = s.wrote := rfl

/-! modQuad. -/

@[simp] theorem State.modQuad_mem (q : Nat) (f : Quad → Quad) : (s.modQuad q f).mem = s.mem := rfl
@[simp] theorem State.modQuad_poison (q : Nat) (f : Quad → Quad) : (s.modQuad q f).poison = s.poison := rfl
@[simp] theorem State.modQuad_cores (q : Nat) (f : Quad → Quad) : (s.modQuad q f).cores = s.cores := rfl
@[simp] theorem State.modQuad_quads (q : Nat) (f : Quad → Quad) : (s.modQuad q f).quads = mapSet s.quads q (f (s.quad q)) := rfl
@[simp] theorem State.modQuad_tiles (q : Nat) (f : Quad → Quad) : (s.modQuad q f).tiles = s.tiles := rfl
@[simp] theorem State.modQuad_hub (q : Nat) (f : Quad → Quad) : (s.modQuad q f).hub = s.hub := rfl
@[simp] theorem State.modQuad_cur (q : Nat) (f : Quad → Quad) : (s.modQuad q f).cur = s.cur := rfl
@[simp] theorem State.modQuad_schedule (q : Nat) (f : Quad → Quad) : (s.modQuad q f).schedule = s.schedule := rfl
@[simp] theorem State.modQuad_choices (q : Nat) (f : Quad → Quad) : (s.modQuad q f).choices = s.choices := rfl
@[simp] theorem State.modQuad_draws (q : Nat) (f : Quad → Quad) : (s.modQuad q f).draws = s.draws := rfl
@[simp] theorem State.modQuad_wrote (q : Nat) (f : Quad → Quad) : (s.modQuad q f).wrote = s.wrote := rfl

/-! setTile. -/

@[simp] theorem State.setTile_mem (t : Nat) (x : Tile) : (s.setTile t x).mem = s.mem := rfl
@[simp] theorem State.setTile_poison (t : Nat) (x : Tile) : (s.setTile t x).poison = s.poison := rfl
@[simp] theorem State.setTile_cores (t : Nat) (x : Tile) : (s.setTile t x).cores = s.cores := rfl
@[simp] theorem State.setTile_quads (t : Nat) (x : Tile) : (s.setTile t x).quads = s.quads := rfl
@[simp] theorem State.setTile_tiles (t : Nat) (x : Tile) : (s.setTile t x).tiles = mapSet s.tiles t x := rfl
@[simp] theorem State.setTile_hub (t : Nat) (x : Tile) : (s.setTile t x).hub = s.hub := rfl
@[simp] theorem State.setTile_cur (t : Nat) (x : Tile) : (s.setTile t x).cur = s.cur := rfl
@[simp] theorem State.setTile_schedule (t : Nat) (x : Tile) : (s.setTile t x).schedule = s.schedule := rfl
@[simp] theorem State.setTile_choices (t : Nat) (x : Tile) : (s.setTile t x).choices = s.choices := rfl
@[simp] theorem State.setTile_draws (t : Nat) (x : Tile) : (s.setTile t x).draws = s.draws := rfl
@[simp] theorem State.setTile_wrote (t : Nat) (x : Tile) : (s.setTile t x).wrote = s.wrote := rfl

/-! modTile. -/

@[simp] theorem State.modTile_mem (t : Nat) (f : Tile → Tile) : (s.modTile t f).mem = s.mem := rfl
@[simp] theorem State.modTile_poison (t : Nat) (f : Tile → Tile) : (s.modTile t f).poison = s.poison := rfl
@[simp] theorem State.modTile_cores (t : Nat) (f : Tile → Tile) : (s.modTile t f).cores = s.cores := rfl
@[simp] theorem State.modTile_quads (t : Nat) (f : Tile → Tile) : (s.modTile t f).quads = s.quads := rfl
@[simp] theorem State.modTile_tiles (t : Nat) (f : Tile → Tile) : (s.modTile t f).tiles = mapSet s.tiles t (f (s.tile t)) := rfl
@[simp] theorem State.modTile_hub (t : Nat) (f : Tile → Tile) : (s.modTile t f).hub = s.hub := rfl
@[simp] theorem State.modTile_cur (t : Nat) (f : Tile → Tile) : (s.modTile t f).cur = s.cur := rfl
@[simp] theorem State.modTile_schedule (t : Nat) (f : Tile → Tile) : (s.modTile t f).schedule = s.schedule := rfl
@[simp] theorem State.modTile_choices (t : Nat) (f : Tile → Tile) : (s.modTile t f).choices = s.choices := rfl
@[simp] theorem State.modTile_draws (t : Nat) (f : Tile → Tile) : (s.modTile t f).draws = s.draws := rfl
@[simp] theorem State.modTile_wrote (t : Nat) (f : Tile → Tile) : (s.modTile t f).wrote = s.wrote := rfl

/-! modHub. -/

@[simp] theorem State.modHub_mem (f : Hub → Hub) : (s.modHub f).mem = s.mem := rfl
@[simp] theorem State.modHub_poison (f : Hub → Hub) : (s.modHub f).poison = s.poison := rfl
@[simp] theorem State.modHub_cores (f : Hub → Hub) : (s.modHub f).cores = s.cores := rfl
@[simp] theorem State.modHub_quads (f : Hub → Hub) : (s.modHub f).quads = s.quads := rfl
@[simp] theorem State.modHub_tiles (f : Hub → Hub) : (s.modHub f).tiles = s.tiles := rfl
@[simp] theorem State.modHub_hub (f : Hub → Hub) : (s.modHub f).hub = f s.hub := rfl
@[simp] theorem State.modHub_cur (f : Hub → Hub) : (s.modHub f).cur = s.cur := rfl
@[simp] theorem State.modHub_schedule (f : Hub → Hub) : (s.modHub f).schedule = s.schedule := rfl
@[simp] theorem State.modHub_choices (f : Hub → Hub) : (s.modHub f).choices = s.choices := rfl
@[simp] theorem State.modHub_draws (f : Hub → Hub) : (s.modHub f).draws = s.draws := rfl
@[simp] theorem State.modHub_wrote (f : Hub → Hub) : (s.modHub f).wrote = s.wrote := rfl

/-! store. -/

@[simp] theorem State.store_mem (runs : List (Nat × List Byte)) : (s.store runs).mem = runs.foldl (fun m r => Memory.writeBytes m r.1 r.2) s.mem := rfl
@[simp] theorem State.store_poison (runs : List (Nat × List Byte)) : (s.store runs).poison = unpoison runs s.poison := rfl
@[simp] theorem State.store_cores (runs : List (Nat × List Byte)) : (s.store runs).cores = s.cores := rfl
@[simp] theorem State.store_quads (runs : List (Nat × List Byte)) : (s.store runs).quads = s.quads := rfl
@[simp] theorem State.store_tiles (runs : List (Nat × List Byte)) : (s.store runs).tiles = s.tiles := rfl
@[simp] theorem State.store_hub (runs : List (Nat × List Byte)) : (s.store runs).hub = s.hub := rfl
@[simp] theorem State.store_cur (runs : List (Nat × List Byte)) : (s.store runs).cur = s.cur := rfl
@[simp] theorem State.store_schedule (runs : List (Nat × List Byte)) : (s.store runs).schedule = s.schedule := rfl
@[simp] theorem State.store_choices (runs : List (Nat × List Byte)) : (s.store runs).choices = s.choices := rfl
@[simp] theorem State.store_draws (runs : List (Nat × List Byte)) : (s.store runs).draws = s.draws := rfl
@[simp] theorem State.store_wrote (runs : List (Nat × List Byte)) :
    (s.store runs).wrote = s.wrote ++ runs.map (fun r => (r.1, r.2.length)) := rfl

/-! poke. -/

@[simp] theorem State.poke_mem (pa n v : Nat) : (s.poke pa n v).mem = Memory.writeBytes s.mem pa (toLE n v) := rfl
@[simp] theorem State.poke_poison (pa n v : Nat) : (s.poke pa n v).poison = unpoison [(pa, toLE n v)] s.poison := rfl
@[simp] theorem State.poke_cores (pa n v : Nat) : (s.poke pa n v).cores = s.cores := rfl
@[simp] theorem State.poke_quads (pa n v : Nat) : (s.poke pa n v).quads = s.quads := rfl
@[simp] theorem State.poke_tiles (pa n v : Nat) : (s.poke pa n v).tiles = s.tiles := rfl
@[simp] theorem State.poke_hub (pa n v : Nat) : (s.poke pa n v).hub = s.hub := rfl
@[simp] theorem State.poke_cur (pa n v : Nat) : (s.poke pa n v).cur = s.cur := rfl
@[simp] theorem State.poke_schedule (pa n v : Nat) : (s.poke pa n v).schedule = s.schedule := rfl
@[simp] theorem State.poke_choices (pa n v : Nat) : (s.poke pa n v).choices = s.choices := rfl
@[simp] theorem State.poke_draws (pa n v : Nat) : (s.poke pa n v).draws = s.draws := rfl
@[simp] theorem State.poke_wrote (pa n v : Nat) : (s.poke pa n v).wrote = s.wrote ++ [(pa, n)] := by
  simp [State.poke, length_toLE]

/-! setItem. -/

@[simp] theorem State.setItem_mem (off n v : Nat) : (s.setItem off n v).mem = Memory.writeBytes s.mem (s.ws + off) (toLE n v) := rfl
@[simp] theorem State.setItem_cores (off n v : Nat) : (s.setItem off n v).cores = s.cores := rfl
@[simp] theorem State.setItem_quads (off n v : Nat) : (s.setItem off n v).quads = s.quads := rfl
@[simp] theorem State.setItem_tiles (off n v : Nat) : (s.setItem off n v).tiles = s.tiles := rfl
@[simp] theorem State.setItem_hub (off n v : Nat) : (s.setItem off n v).hub = s.hub := rfl
@[simp] theorem State.setItem_cur (off n v : Nat) : (s.setItem off n v).cur = s.cur := rfl
@[simp] theorem State.setItem_schedule (off n v : Nat) : (s.setItem off n v).schedule = s.schedule := rfl
@[simp] theorem State.setItem_choices (off n v : Nat) : (s.setItem off n v).choices = s.choices := rfl
@[simp] theorem State.setItem_draws (off n v : Nat) : (s.setItem off n v).draws = s.draws := rfl
@[simp] theorem State.setItem_wrote (off n v : Nat) : (s.setItem off n v).wrote = s.wrote ++ [(s.ws + off, n)] :=
  s.poke_wrote _ n v

/-! bump. -/

@[simp] theorem State.bump_mem (q off n size : Nat) : (s.bump q off n size).mem = s.mem := rfl
@[simp] theorem State.bump_poison (q off n size : Nat) : (s.bump q off n size).poison = s.poison := rfl
@[simp] theorem State.bump_cores (q off n size : Nat) : (s.bump q off n size).cores = s.cores := rfl
@[simp] theorem State.bump_tiles (q off n size : Nat) : (s.bump q off n size).tiles = s.tiles := rfl
@[simp] theorem State.bump_hub (q off n size : Nat) : (s.bump q off n size).hub = s.hub := rfl
@[simp] theorem State.bump_cur (q off n size : Nat) : (s.bump q off n size).cur = s.cur := rfl
@[simp] theorem State.bump_schedule (q off n size : Nat) : (s.bump q off n size).schedule = s.schedule := rfl
@[simp] theorem State.bump_choices (q off n size : Nat) : (s.bump q off n size).choices = s.choices := rfl
@[simp] theorem State.bump_draws (q off n size : Nat) : (s.bump q off n size).draws = s.draws := rfl
@[simp] theorem State.bump_wrote (q off n size : Nat) : (s.bump q off n size).wrote = s.wrote := rfl

/-! joinService. -/

@[simp] theorem State.joinService_mem (n k : Nat) : (s.joinService n k).mem = s.mem := rfl
@[simp] theorem State.joinService_poison (n k : Nat) : (s.joinService n k).poison = s.poison := rfl
@[simp] theorem State.joinService_cores (n k : Nat) : (s.joinService n k).cores = s.cores := rfl
@[simp] theorem State.joinService_quads (n k : Nat) : (s.joinService n k).quads = s.quads := rfl
@[simp] theorem State.joinService_hub (n k : Nat) : (s.joinService n k).hub = s.hub := rfl
@[simp] theorem State.joinService_cur (n k : Nat) : (s.joinService n k).cur = s.cur := rfl
@[simp] theorem State.joinService_schedule (n k : Nat) : (s.joinService n k).schedule = s.schedule := rfl
@[simp] theorem State.joinService_choices (n k : Nat) : (s.joinService n k).choices = s.choices := rfl
@[simp] theorem State.joinService_draws (n k : Nat) : (s.joinService n k).draws = s.draws := rfl
@[simp] theorem State.joinService_wrote (n k : Nat) : (s.joinService n k).wrote = s.wrote := rfl

/-! leaveService. -/

@[simp] theorem State.leaveService_mem (n k : Nat) : (s.leaveService n k).mem = s.mem := rfl
@[simp] theorem State.leaveService_poison (n k : Nat) : (s.leaveService n k).poison = s.poison := rfl
@[simp] theorem State.leaveService_cores (n k : Nat) : (s.leaveService n k).cores = s.cores := rfl
@[simp] theorem State.leaveService_quads (n k : Nat) : (s.leaveService n k).quads = s.quads := rfl
@[simp] theorem State.leaveService_hub (n k : Nat) : (s.leaveService n k).hub = s.hub := rfl
@[simp] theorem State.leaveService_cur (n k : Nat) : (s.leaveService n k).cur = s.cur := rfl
@[simp] theorem State.leaveService_schedule (n k : Nat) : (s.leaveService n k).schedule = s.schedule := rfl
@[simp] theorem State.leaveService_choices (n k : Nat) : (s.leaveService n k).choices = s.choices := rfl
@[simp] theorem State.leaveService_draws (n k : Nat) : (s.leaveService n k).draws = s.draws := rfl
@[simp] theorem State.leaveService_wrote (n k : Nat) : (s.leaveService n k).wrote = s.wrote := rfl

/-! goto. -/

@[simp] theorem State.goto_mem (pc : PCVal) : (s.goto pc).mem = s.mem := rfl
@[simp] theorem State.goto_poison (pc : PCVal) : (s.goto pc).poison = s.poison := rfl
@[simp] theorem State.goto_quads (pc : PCVal) : (s.goto pc).quads = s.quads := rfl
@[simp] theorem State.goto_tiles (pc : PCVal) : (s.goto pc).tiles = s.tiles := rfl
@[simp] theorem State.goto_hub (pc : PCVal) : (s.goto pc).hub = s.hub := rfl
@[simp] theorem State.goto_cur (pc : PCVal) : (s.goto pc).cur = s.cur := rfl
@[simp] theorem State.goto_schedule (pc : PCVal) : (s.goto pc).schedule = s.schedule := rfl
@[simp] theorem State.goto_choices (pc : PCVal) : (s.goto pc).choices = s.choices := rfl
@[simp] theorem State.goto_draws (pc : PCVal) : (s.goto pc).draws = s.draws := rfl
@[simp] theorem State.goto_wrote (pc : PCVal) : (s.goto pc).wrote = s.wrote := rfl

/-! Units after a change. -/

theorem State.core_setCore (n m : Nat) (c : Core) : (s.setCore n c).core m = if m = n then c else s.core m := by
  unfold State.core; rw [State.setCore_cores, mapGet_mapSet]; split <;> rfl

theorem State.core_modCore (n m : Nat) (f : Core → Core) :
    (s.modCore n f).core m = if m = n then f (s.core n) else s.core m := State.core_setCore s n m _

@[simp] theorem State.core_modQuad (q : Nat) (f : Quad → Quad) (m : Nat) : (s.modQuad q f).core m = s.core m := rfl
@[simp] theorem State.core_modTile (t : Nat) (f : Tile → Tile) (m : Nat) : (s.modTile t f).core m = s.core m := rfl
@[simp] theorem State.core_modHub (f : Hub → Hub) (m : Nat) : (s.modHub f).core m = s.core m := rfl
@[simp] theorem State.core_store (r : List (Nat × List Byte)) (m : Nat) : (s.store r).core m = s.core m := rfl
@[simp] theorem State.core_poke (a n v m : Nat) : (s.poke a n v).core m = s.core m := rfl
@[simp] theorem State.ctx_modQuad (q : Nat) (f : Quad → Quad) (n k : Nat) : (s.modQuad q f).ctx n k = s.ctx n k := rfl
@[simp] theorem State.ctx_modTile (t : Nat) (f : Tile → Tile) (n k : Nat) : (s.modTile t f).ctx n k = s.ctx n k := rfl
@[simp] theorem State.ctx_modHub (f : Hub → Hub) (n k : Nat) : (s.modHub f).ctx n k = s.ctx n k := rfl
@[simp] theorem State.ctx_store (r : List (Nat × List Byte)) (n k : Nat) : (s.store r).ctx n k = s.ctx n k := rfl
@[simp] theorem State.ctx_poke (a z v n k : Nat) : (s.poke a z v).ctx n k = s.ctx n k := rfl
@[simp] theorem State.quad_store (r : List (Nat × List Byte)) (q : Nat) : (s.store r).quad q = s.quad q := rfl
@[simp] theorem State.quad_poke (a n v q : Nat) : (s.poke a n v).quad q = s.quad q := rfl
@[simp] theorem State.tile_store (r : List (Nat × List Byte)) (t : Nat) : (s.store r).tile t = s.tile t := rfl
@[simp] theorem State.tile_poke (a n v t : Nat) : (s.poke a n v).tile t = s.tile t := rfl

theorem State.ctx_modCtx (n k m j : Nat) (f : Ctx → Ctx) :
    (s.modCtx n k f).ctx m j = if m = n ∧ j = k then f (s.ctx n k) else s.ctx m j := by
  unfold State.modCtx State.setCtx State.ctx
  rw [State.core_modCore]
  by_cases hm : m = n
  · subst hm
    by_cases hj : j = k
    · subst hj; simp [Core.ctx, mapGet_mapSet]
    · simp [Core.ctx, mapGet_mapSet, hj]
  · simp [hm]

@[simp] theorem State.ctx_modCtx_same (n k : Nat) (f : Ctx → Ctx) : (s.modCtx n k f).ctx n k = f (s.ctx n k) := by
  simp [State.ctx_modCtx]

theorem State.ctx_modCtx_other (n k m j : Nat) (f : Ctx → Ctx) (h : ¬(m = n ∧ j = k)) :
    (s.modCtx n k f).ctx m j = s.ctx m j := by
  simp [State.ctx_modCtx, h]

@[simp] theorem State.cx_modCx (f : Ctx → Ctx) : (s.modCx f).cx = f s.cx := State.ctx_modCtx_same s _ _ f

/-- Two changes of one context are one. -/
theorem State.modCtx_modCtx (n k : Nat) (f h : Ctx → Ctx) :
    (s.modCtx n k f).modCtx n k h = s.modCtx n k (fun x => h (f x)) := by
  have e := State.ctx_modCtx_same s n k f
  have c := State.core_setCore s n n { s.core n with ctxs := mapSet (s.core n).ctxs k (f (s.ctx n k)) }
  rw [if_pos rfl] at c
  unfold State.modCtx at e ⊢
  rw [e]
  unfold State.setCtx State.modCore at *
  rw [c]
  simp [State.setCore, mapSet_mapSet]

theorem State.quad_modQuad (q r : Nat) (f : Quad → Quad) :
    (s.modQuad q f).quad r = if r = q then f (s.quad q) else s.quad r := by
  unfold State.quad; rw [State.modQuad_quads, mapGet_mapSet]; split <;> rfl

theorem State.tile_modTile (t u : Nat) (f : Tile → Tile) :
    (s.modTile t f).tile u = if u = t then f (s.tile t) else s.tile u := by
  unfold State.tile; rw [State.modTile_tiles, mapGet_mapSet]; split <;> rfl

/-- The quad of a core and what hangs on its VF are not in the contexts. -/
@[simp] theorem State.quad_modCtx (n k : Nat) (f : Ctx → Ctx) (q : Nat) : (s.modCtx n k f).quad q = s.quad q := rfl
@[simp] theorem State.tile_modCtx (n k : Nat) (f : Ctx → Ctx) (t : Nat) : (s.modCtx n k f).tile t = s.tile t := rfl
@[simp] theorem State.byte_modCtx (n k : Nat) (f : Ctx → Ctx) (a : Nat) : (s.modCtx n k f).byte a = s.byte a := rfl
@[simp] theorem State.peek_modCtx (n k : Nat) (f : Ctx → Ctx) (a z : Nat) : (s.modCtx n k f).peek a z = s.peek a z := rfl
@[simp] theorem State.byte_modQuad (q : Nat) (f : Quad → Quad) (a : Nat) : (s.modQuad q f).byte a = s.byte a := rfl
@[simp] theorem State.byte_modHub (f : Hub → Hub) (a : Nat) : (s.modHub f).byte a = s.byte a := rfl
@[simp] theorem State.byte_modTile (t : Nat) (f : Tile → Tile) (a : Nat) : (s.modTile t f).byte a = s.byte a := rfl
@[simp] theorem State.byte_modCore (n : Nat) (f : Core → Core) (a : Nat) : (s.modCore n f).byte a = s.byte a := rfl

/-! Bytes after a store. -/

/-- A byte that no run meets is as it was. -/
theorem State.byte_store_other (runs : List (Nat × List Byte)) (a : Nat)
    (h : ∀ r ∈ runs, a < r.1 ∨ r.1 + r.2.length ≤ a) : (s.store runs).byte a = s.byte a :=
  Memory.read_runs_other runs s.mem a h

theorem State.byte_poke_other (pa n v a : Nat) (h : a < pa ∨ pa + n ≤ a) : (s.poke pa n v).byte a = s.byte a :=
  Memory.read_writeBytes_other _ _ _ _ (by simpa using h)

/-- A number stored reads back. -/
theorem State.peek_poke_same (pa n v : Nat) : (s.poke pa n v).peek pa n = v % 256 ^ n := by
  have h := Memory.readBytes_writeBytes_same (toLE n v) s.mem pa
  rw [length_toLE] at h
  unfold State.peek
  rw [State.poke_mem, h, leNat_toLE]

/-- A number that a store does not meet reads as before. -/
theorem State.peek_poke_other (pa n v x z : Nat) (h : x + z ≤ pa ∨ pa + n ≤ x) : (s.poke pa n v).peek x z = s.peek x z := by
  unfold State.peek
  rw [State.poke_mem, Memory.readBytes_writeBytes_other _ _ _ _ _ (by simpa using h)]

theorem State.peek_lt (pa n : Nat) : s.peek pa n < 256 ^ n := by
  have h := leNat_lt (Memory.readBytes s.mem pa n)
  rwa [Memory.length_readBytes] at h

/-- A store keeps the canonical form of memory. -/
theorem State.wf_store (runs : List (Nat × List Byte)) (h : Memory.wf s.mem = true) : Memory.wf (s.store runs).mem = true :=
  Memory.wf_runs runs s.mem h

theorem State.wf_poke (pa n v : Nat) (h : Memory.wf s.mem = true) : Memory.wf (s.poke pa n v).mem = true :=
  Memory.wf_writeBytes _ _ _ h

/-- A store poisons nothing (R204). -/
theorem State.poisoned_store (runs : List (Nat × List Byte)) (a : Nat) (h : (s.store runs).poisoned a = true) :
    s.poisoned a = true := by
  unfold State.poisoned at h ⊢
  rw [State.store_poison, unpoison, List.any_eq_true] at h
  obtain ⟨g, hg, ha⟩ := h
  exact List.any_eq_true.mpr ⟨g, List.mem_of_mem_filter hg, ha⟩

end Sys2Proof.Machine
end

