-- ==== Sys2Proof/Laws/Frame.lean ====
section
/-!
SUPPORT. The frame every instruction runs in, said once: what `run` does when an instruction takes effect, what a false
guard and a refused prefix do, and what the shared forms of register operations write.
-/

namespace Sys2Proof.Machine

/-! `run`. -/

theorem run_takes {i : Instr} {g : BitVec 4} {u : GuardUse} {s : State} (h : Takes i g u s) (body : State → Res) :
    run i g u s body = .next (s.settle i (body s)) := by
  unfold run
  rw [h.accepts, if_neg (by simp), if_neg h.guarded, h.sources, h.passes]
  rcases h.clean with hg | hg <;> simp [hg]

theorem run_refuses {i : Instr} {g : BitVec 4} {u : GuardUse} {s : State} (h : i.accepts s.cx.chain = false)
    (body : State → Res) : run i g u s body = .next (s.raise 0x01 (BitVec.zeroExtend 64 (encode i))) := by
  simp [run, h]

theorem run_nothing {i : Instr} {u : GuardUse} {s : State} (h : i.accepts s.cx.chain = true) (body : State → Res) :
    run i 15 u s body = .next (s.passed i) := by
  simp [run, h]

theorem run_false {i : Instr} {g : BitVec 4} {u : GuardUse} {s : State} (h : i.accepts s.cx.chain = true)
    (hc : g = 7 ∨ s.regPoison (guardReg g) = none) (hp : u.passes s g = false) (body : State → Res) :
    run i g u s body = .next (s.passed i) := by
  unfold run
  rw [h, hp]
  rcases hc with hg | hg <;> simp [hg]

/-! Completion. -/

theorem completed_plain {i : Instr} (h : i.wouldBlock = false) (t : State) : t.completed i = t.noRetry i := by
  simp [State.completed, h]

theorem settle_done (s t : State) (i : Instr) : s.settle i (.done t) = (t.completed i).goto s.nextPc := rfl
theorem settle_jump (s t : State) (i : Instr) (pc : PCVal) : s.settle i (.jump t pc) = (t.completed i).goto pc := rfl

/-- What completion and a change of the PC leave. -/
theorem plain_goto (i : Instr) (t : State) (pc : PCVal) :
    (t.noRetry i).goto pc = t.modCx (fun x => { x with retry := endsRetry i x.retry, pc := pc, chain := [], lost := 0, past := [] }) := by
  simp only [State.noRetry, State.goto, State.modCx, State.modCtx_cur, State.modCtx_modCtx]

/-- What completion leaves of the issuing context's bytes. -/
theorem byte_plain (i : Instr) (t : State) (pc : PCVal) (a : Nat) : ((t.noRetry i).goto pc).byte a = t.byte a := rfl
theorem peek_plain (i : Instr) (t : State) (pc : PCVal) (a n : Nat) :
    ((t.noRetry i).goto pc).peek a n = t.peek a n := rfl

theorem cx_plain (i : Instr) (t : State) (pc : PCVal) :
    ((t.noRetry i).goto pc).cx = { t.cx with retry := endsRetry i t.cx.retry, pc := pc, chain := [], lost := 0, past := [] } := by
  rw [plain_goto]; simp

/-- An instruction that completes, and whose effect t leaves everything but the bytes that B names, is framed by B. -/
theorem framed_plain (i : Instr) (s t : State) (pc : PCVal) (B : Nat → Prop) (hb : ∀ a, ¬ B a → t.byte a = s.byte a)
    (hp : ∀ a, t.poisoned a = true → s.poisoned a = true)
    (he : t = { s with mem := t.mem, poison := t.poison, wrote := t.wrote }) : Framed s ((t.noRetry i).goto pc) B := by
  have hc : t.cores = s.cores := by rw [he]
  have hu : t.cur = s.cur := by rw [he]
  have hx (n k : Nat) : t.ctx n k = s.ctx n k := by simp only [State.ctx, State.core, hc]
  refine ⟨fun a ha => hb a ha, fun a ha => hp a ha, ?_, ?_, ?_, ?_, ?_, ?_, ?_, ?_, ?_⟩
  · show t.quads = _; rw [he]
  · show t.tiles = _; rw [he]
  · show t.hub = _; rw [he]
  · exact hu
  · show t.schedule = _; rw [he]
  · show t.draws = _; rw [he]
  · intro n k hk
    rw [plain_goto, State.modCx, State.ctx_modCtx_other _ _ _ _ _ _ (by rw [hu]; exact hk), hx]
  · intro n
    have hn : t.core n = s.core n := by simp only [State.core, hc]
    rw [plain_goto, State.modCx, State.modCtx, State.setCtx, State.core_modCore, ← hn]
    split
    · next h => rw [h]
    · rfl
  · rw [cx_plain]
    have : t.cx = s.cx := by unfold State.cx; rw [hu, hx]
    rw [this]

/-- The same for a store of runs inside B. -/
theorem framed_store (i : Instr) (s : State) (runs : List (Nat × List Byte)) (pc : PCVal) (B : Nat → Prop)
    (h : ∀ a, ¬ B a → ∀ r ∈ runs, a < r.1 ∨ r.1 + r.2.length ≤ a) :
    Framed s (((s.store runs).noRetry i).goto pc) B :=
  framed_plain i s _ pc B (fun a ha => State.byte_store_other s runs a (h a ha))
    (fun a ha => State.poisoned_store s runs a ha) rfl

theorem wsOf_eq (s : State) (n k : Nat) :
    s.wsOf n k = quadLocal (quadOf n) + (s.ctx n k).wsp.toNat % Memory.localSize := rfl
theorem ws_eq_wsOf (s : State) : s.ws = s.wsOf s.cur.core s.cur.ctx := rfl

/-- Workspaces of one core and one pointer lie at one place. -/
theorem wsOf_congr {s t : State} {n k m j : Nat} (hn : n = m) (h : (s.ctx n k).wsp = (t.ctx m j).wsp) :
    s.wsOf n k = t.wsOf m j := by
  subst hn; rw [wsOf_eq, wsOf_eq, h]

/-- The workspace of the issuing context stays where it is. -/
theorem Framed.ws {s t : State} {B : Nat → Prop} (h : Framed s t B) : t.ws = s.ws := by
  have hw : t.cx.wsp = s.cx.wsp := by rw [h.own]
  rw [ws_eq_wsOf, ws_eq_wsOf]
  exact wsOf_congr (by rw [h.cur]) hw

theorem ws_plain (i : Instr) (t : State) (pc : PCVal) : ((t.noRetry i).goto pc).ws = t.ws :=
  (framed_plain i t t pc (fun _ => False) (fun _ _ => rfl) (fun _ h => h) rfl).ws

/-- A store moves no workspace. -/
@[simp] theorem ws_store (s : State) (runs : List (Nat × List Byte)) : (s.store runs).ws = s.ws :=
  wsOf_congr (s := s.store runs) (t := s) rfl rfl
@[simp] theorem ws_poke (s : State) (pa n v : Nat) : (s.poke pa n v).ws = s.ws := ws_store s _

/-! The shared forms of register operations. -/

theorem getS_zero (s : State) : s.getS 0 = 0 := by simp [State.getS]
theorem getP_seven (s : State) : s.getP 7 = 0xFFFFFFFF := by simp [State.getP]

/-- S[d] reads as written. -/
theorem getS_setS (s : State) (d : BitVec 6) (v : W64) (hd : d ≠ 0) : (s.setS d v).getS d = v := by
  have hw : (s.setS d v).ws = s.ws := by
    unfold State.setS; split
    · rfl
    · exact ws_store s _
  unfold State.getS
  rw [if_neg hd, hw]
  unfold State.setS
  rw [if_neg hd, State.peek_poke_same]
  apply BitVec.eq_of_toNat_eq
  rw [BitVec.toNat_ofNat, show (256 : Nat) ^ 8 = 2 ^ 64 by norm_num, Nat.mod_mod, Nat.mod_eq_of_lt v.isLt]

theorem getS_plain (i : Instr) (t : State) (pc : PCVal) (d : BitVec 6) : ((t.noRetry i).goto pc).getS d = t.getS d := by
  unfold State.getS
  rw [peek_plain, ws_plain]

/-- A write of S[d] changes nothing else. -/
theorem framed_setS (i : Instr) (s : State) (d : BitVec 6) (v : W64) (pc : PCVal) :
    Framed s (((s.setS d v).noRetry i).goto pc) (inS s d) := by
  unfold State.setS
  split
  · exact framed_plain i s s pc _ (fun _ _ => rfl) (fun _ h => h) rfl
  · next hd =>
    refine framed_store i s _ pc _ ?_
    intro a ha r hr
    rw [List.mem_singleton] at hr
    subst hr
    simp only [inS, length_toLE, not_and, not_lt] at ha ⊢
    have := ha hd
    omega

/-- An operation on S[d] that takes effect writes S[d] and nothing else. -/
theorem scalarOp_writes {i : Instr} {g : BitVec 4} {d : BitVec 6} {s : State} (f : State → W64)
    (he : exec i s = scalarOp i g d f s) (hb : i.wouldBlock = false) (h : Takes i g .scalar s) :
    WritesS i d (f s) s := by
  refine ⟨((s.setS d (f s)).noRetry i).goto s.nextPc, ?_, ?_, getS_zero _, ?_, framed_setS _ _ _ _ _⟩
  · rw [he, scalarOp, run_takes h, settle_done, completed_plain hb]
  · intro hd
    rw [getS_plain, getS_setS _ _ _ hd]
  · rw [cx_plain]

/-! Lanes. -/

theorem mem_fromTo {i a n : Nat} : i ∈ fromTo a n ↔ a ≤ i ∧ i < a + n := by
  induction n generalizing a with
  | zero => simp [fromTo]
  | succ n ih => simp only [fromTo, List.mem_cons, ih]; omega

/-- Bytes of one lane after a store of some. -/
theorem readBytes_lanes (L : List Nat) (m : List Host.Cell) (b : Nat) (f : Nat → Nat) (j : Nat) :
    Memory.readBytes ((L.map (fun i => (b + 4 * i, toLE 4 (f i)))).foldl (fun m r => Memory.writeBytes m r.1 r.2) m)
      (b + 4 * j) 4 = if j ∈ L then toLE 4 (f j) else Memory.readBytes m (b + 4 * j) 4 := by
  induction L generalizing m with
  | nil => simp
  | cons i t ih =>
    simp only [List.map_cons, List.foldl_cons, ih, List.mem_cons]
    by_cases ht : j ∈ t
    · simp [ht]
    · by_cases hi : j = i
      · subst hi
        have := Memory.readBytes_writeBytes_same (toLE 4 (f j)) m (b + 4 * j)
        rw [length_toLE] at this
        simp [ht, this]
      · rw [Memory.readBytes_writeBytes_other _ _ _ _ _ (by rw [length_toLE]; omega)]
        simp [ht, hi]

/-- V[n] after a masked write. -/
theorem getV_setV (s : State) (n : BitVec 5) (mask : W32) (f : Nat → W32) (j : Nat) (hj : j < 32) :
    (s.setV n mask f).getV n j = if mask.getLsbD j then f j else s.getV n j := by
  have hw : (s.setV n mask f).ws = s.ws := ws_store s _
  unfold State.getV State.peek
  rw [hw]
  unfold State.setV
  rw [State.store_mem, readBytes_lanes]
  have hm : j ∈ (fromTo 0 32).filter (fun i => mask.getLsbD i) ↔ mask.getLsbD j = true := by
    simp [mem_fromTo, hj]
  by_cases hb : mask.getLsbD j = true
  · rw [if_pos (hm.mpr hb), if_pos hb, leNat_toLE]
    apply BitVec.eq_of_toNat_eq
    rw [BitVec.toNat_ofNat, show (256 : Nat) ^ 4 = 2 ^ 32 by norm_num, Nat.mod_mod, Nat.mod_eq_of_lt (f j).isLt]
  · rw [if_neg (fun h => hb (hm.mp h)), if_neg hb]

theorem getV_plain (i : Instr) (t : State) (pc : PCVal) (n : BitVec 5) (j : Nat) :
    ((t.noRetry i).goto pc).getV n j = t.getV n j := by
  unfold State.getV
  rw [peek_plain, ws_plain]

theorem getP_plain (i : Instr) (t : State) (pc : PCVal) (n : BitVec 3) : ((t.noRetry i).goto pc).getP n = t.getP n := by
  unfold State.getP
  rw [peek_plain, ws_plain]

theorem flags_plain (i : Instr) (t : State) (pc : PCVal) : ((t.noRetry i).goto pc).flags = t.flags := by
  unfold State.flags State.item
  rw [peek_plain, ws_plain]

/-- The runs of a masked vector write lie in the register. -/
theorem setV_runs (s : State) (d : BitVec 5) (mask : W32) (f : Nat → W32) (a : Nat) (h : ¬ inV s d a) :
    ∀ r ∈ ((fromTo 0 32).filter (fun i => mask.getLsbD i)).map
      (fun i => (s.ws + 0x200 + 0x80 * d.toNat + 4 * i, toLE 4 (f i).toNat)), a < r.1 ∨ r.1 + r.2.length ≤ a := by
  intro r hr
  obtain ⟨i, hi, rfl⟩ := List.mem_map.mp hr
  have := (mem_fromTo.mp (List.mem_of_mem_filter hi)).2
  simp only [inV, length_toLE, not_and, not_lt] at h ⊢
  by_cases h1 : s.ws + 512 + 128 * d.toNat ≤ a
  · have := h h1; omega
  · omega

/-- An operation on V[d] that takes effect writes its guarded lanes and nothing else. -/
theorem vectorOp_writes {i : Instr} {g : BitVec 4} {d : BitVec 5} {s : State} (f : State → Nat → W32)
    (he : exec i s = vectorOp i g d f s) (hb : i.wouldBlock = false) (h : Takes i g .lanes s) :
    WritesV i d (s.guard g) (f s) s := by
  refine ⟨((s.setV d (s.guard g) (f s)).noRetry i).goto s.nextPc, ?_, ?_, ?_, ?_⟩
  · rw [he, vectorOp, run_takes h, settle_done, completed_plain hb]
  · intro j hj
    rw [getV_plain, getV_setV _ _ _ _ _ hj]
  · rw [cx_plain]
  · exact framed_store i s _ _ _ (fun a ha => setV_runs s d _ _ a ha)

/-! Predicates. -/

/-- P[d] reads as written. -/
theorem getP_setP (s : State) (d : BitVec 3) (v : W32) (hd : d ≠ 7) : (s.setP d v).getP d = v := by
  have hw : (s.setP d v).ws = s.ws := by
    unfold State.setP; split
    · rfl
    · exact ws_store s _
  unfold State.getP
  rw [if_neg hd, hw]
  unfold State.setP
  rw [if_neg hd, State.peek_poke_same]
  apply BitVec.eq_of_toNat_eq
  rw [BitVec.toNat_ofNat, show (256 : Nat) ^ 4 = 2 ^ 32 by norm_num, Nat.mod_mod, Nat.mod_eq_of_lt v.isLt]

theorem laneBits_go (L : List Nat) (hL : ∀ i ∈ L, i < 32) (f : Nat → Bool) (acc : W32) (j : Nat) (hj : j < 32) :
    (L.foldl (fun acc i => if f i then acc ||| (1 : W32) <<< i else acc) acc).getLsbD j =
      (acc.getLsbD j || (decide (j ∈ L) && f j)) := by
  induction L generalizing acc with
  | nil => simp
  | cons i t ih =>
    have hi := hL i List.mem_cons_self
    rw [List.foldl_cons, ih (fun k hk => hL k (List.mem_cons_of_mem _ hk))]
    by_cases hf : f i = true
    · rw [if_pos hf]
      by_cases hji : j = i
      · subst hji
        simp [hf, hj]
      · have : ((1 : W32) <<< i).getLsbD j = false := by
          rw [BitVec.getLsbD_shiftLeft]
          by_cases hlt : j < i
          · simp [hlt]
          · simp [BitVec.getLsbD_one]; omega
        rw [BitVec.getLsbD_or, this]
        simp [hji]
    · rw [if_neg hf]
      by_cases hji : j = i
      · subst hji; simp [hf]
      · simp [hji]

/-- Bit j of a word of lanes. -/
theorem laneBits_get (f : Nat → Bool) (j : Nat) (hj : j < 32) : (laneBits f).getLsbD j = f j := by
  unfold laneBits
  rw [laneBits_go _ (fun i hi => by have := (mem_fromTo.mp hi).2; omega) f 0 j hj]
  simp [mem_fromTo, hj]

/-- A write of P[d] changes nothing else. -/
theorem framed_setP (i : Instr) (s : State) (d : BitVec 3) (v : W32) (pc : PCVal) :
    Framed s (((s.setP d v).noRetry i).goto pc) (inP s d) := by
  unfold State.setP
  split
  · exact framed_plain i s s pc _ (fun _ _ => rfl) (fun _ h => h) rfl
  · next hd =>
    refine framed_store i s _ pc _ ?_
    intro a ha r hr
    rw [List.mem_singleton] at hr
    subst hr
    simp only [inP, length_toLE, not_and, not_lt] at ha ⊢
    have := ha hd
    omega

/-- An operation on P[d] by lanes that takes effect writes its guarded lanes and nothing else. -/
theorem setPMask_writes {i : Instr} {g : BitVec 4} {u : GuardUse} {d : BitVec 3} {s : State} (mask : W32) (f : Nat → Bool)
    (body : State → Res) (he : exec i s = run i g u s body) (hs : body s = .done (s.setPMask d mask f))
    (hb : i.wouldBlock = false) (h : Takes i g u s) : WritesP i d mask f s := by
  refine ⟨((s.setPMask d mask f).noRetry i).goto s.nextPc, ?_, ?_, getP_seven _, ?_, ?_⟩
  · rw [he, run_takes h, hs, settle_done, completed_plain hb]
  · intro hd j hj
    rw [getP_plain, State.setPMask, getP_setP _ _ _ hd]
    by_cases hm : mask.getLsbD j = true
    · rw [BitVec.getLsbD_or, BitVec.getLsbD_and, BitVec.getLsbD_and, BitVec.getLsbD_not, hm,
        laneBits_get f j hj]
      simp
    · rw [Bool.not_eq_true] at hm
      rw [BitVec.getLsbD_or, BitVec.getLsbD_and, BitVec.getLsbD_and, BitVec.getLsbD_not, hm]
      simp [hj]
  · rw [cx_plain]
  · exact framed_setP _ _ _ _ _

/-! Float flags. -/

theorem addFx_eq (s : State) (fx : Nat) :
    s.addFx fx = if fx % 32 = 0 then s
      else s.poke (s.ws + 0x1240) 8 (s.flags ||| BitVec.ofNat 64 (fx % 32)).toNat := rfl

theorem flags_addFx (s : State) (fx : Nat) : (s.addFx fx).flags = s.flags ||| BitVec.ofNat 64 (fx % 32) := by
  rw [addFx_eq]
  split
  · next h => rw [h]; simp
  · rw [State.flags, State.item, ws_poke, State.peek_poke_same]
    apply BitVec.eq_of_toNat_eq
    rw [BitVec.toNat_ofNat, show (256 : Nat) ^ 8 = 2 ^ 64 by norm_num, Nat.mod_mod, Nat.mod_eq_of_lt (BitVec.isLt _)]

/-- The flags lie apart from the registers. -/
theorem flags_setS (s : State) (d : BitVec 6) (v : W64) : (s.setS d v).flags = s.flags := by
  unfold State.setS
  split
  · rfl
  · unfold State.flags State.item
    have := d.isLt
    rw [ws_poke, State.peek_poke_other _ _ _ _ _ _ (by omega)]

theorem byte_addFx (s : State) (fx a : Nat) (h : ¬ inItem s 0x1240 8 a) : (s.addFx fx).byte a = s.byte a := by
  rw [addFx_eq]
  split
  · rfl
  · refine State.byte_poke_other _ _ _ _ _ ?_
    simp only [inItem, not_and, not_lt] at h
    by_cases h1 : s.ws + 0x1240 ≤ a
    · have := h h1; omega
    · omega

theorem poisoned_addFx (s : State) (fx a : Nat) (h : (s.addFx fx).poisoned a = true) : s.poisoned a = true := by
  rw [addFx_eq] at h
  split at h
  · exact h
  · exact State.poisoned_store s _ a h

theorem store_rest (s : State) (r : List (Nat × List Byte)) :
    s.store r = { s with mem := (s.store r).mem, poison := (s.store r).poison, wrote := (s.store r).wrote } := rfl
theorem poke_rest (s : State) (a n v : Nat) :
    s.poke a n v = { s with mem := (s.poke a n v).mem, poison := (s.poke a n v).poison, wrote := (s.poke a n v).wrote } := rfl
theorem addFx_rest (s : State) (fx : Nat) : s.addFx fx = { s with mem := (s.addFx fx).mem, poison := (s.addFx fx).poison, wrote := (s.addFx fx).wrote } := by
  by_cases h : fx % 32 = 0
  · rw [addFx_eq, if_pos h]
  · rw [addFx_eq, if_neg h]
    exact poke_rest _ _ _ _

theorem ws_addFx (s : State) (fx : Nat) : (s.addFx fx).ws = s.ws := by
  rw [addFx_eq]
  split
  · rfl
  · exact ws_poke _ _ _ _

/-- What lies apart from the flags reads as before. -/
theorem peek_addFx (s : State) (fx x z : Nat) (h : x + z ≤ s.ws + 0x1240 ∨ s.ws + 0x1248 ≤ x) :
    (s.addFx fx).peek x z = s.peek x z := by
  by_cases hf : fx % 32 = 0
  · rw [addFx_eq, if_pos hf]
  · rw [addFx_eq, if_neg hf, State.peek_poke_other _ _ _ _ _ _ (by omega)]

theorem getS_addFx (s : State) (fx : Nat) (d : BitVec 6) : (s.addFx fx).getS d = s.getS d := by
  have := d.isLt
  rw [State.getS, State.getS, ws_addFx, peek_addFx _ _ _ _ (by omega)]

theorem getV_addFx (s : State) (fx : Nat) (n : BitVec 5) (j : Nat) (hj : j < 32) : (s.addFx fx).getV n j = s.getV n j := by
  have := n.isLt
  rw [State.getV, State.getV, ws_addFx, peek_addFx _ _ _ _ (by omega)]

theorem ws_setS (s : State) (d : BitVec 6) (v : W64) : (s.setS d v).ws = s.ws := by
  by_cases hd : d = 0
  · rw [State.setS, if_pos hd]
  · rw [State.setS, if_neg hd, ws_poke]

theorem ws_setV (s : State) (d : BitVec 5) (m : W32) (f : Nat → W32) : (s.setV d m f).ws = s.ws := ws_store s _

theorem setS_rest (s : State) (d : BitVec 6) (v : W64) :
    s.setS d v = { s with mem := (s.setS d v).mem, poison := (s.setS d v).poison, wrote := (s.setS d v).wrote } := by
  by_cases hd : d = 0
  · rw [State.setS, if_pos hd]
  · rw [State.setS, if_neg hd]
    exact poke_rest _ _ _ _

/-- A float operation's second effect is the flags': what the first leaves of everything else stays. -/
theorem framed_addFx (i : Instr) (s t : State) (fx : Nat) (pc : PCVal) (B : Nat → Prop) (hw : t.ws = s.ws)
    (hb : ∀ a, ¬ B a → t.byte a = s.byte a) (hp : ∀ a, t.poisoned a = true → s.poisoned a = true)
    (he : t = { s with mem := t.mem, poison := t.poison, wrote := t.wrote }) :
    Framed s (((t.addFx fx).noRetry i).goto pc) (fun a => B a ∨ inItem s 0x1240 8 a) := by
  refine framed_plain i s _ _ _ ?_ (fun a ha => hp a (poisoned_addFx _ _ _ ha)) ?_
  · intro a ha
    rw [not_or] at ha
    rw [byte_addFx t fx a (by unfold inItem; rw [hw]; exact ha.2)]
    exact hb a ha.1
  · rw [addFx_rest]
    generalize (t.addFx fx).mem = m
    generalize (t.addFx fx).poison = p
    generalize (t.addFx fx).wrote = w
    rw [he]

/-- A scalar float operation that takes effect writes S[d], gathers its flags, and does nothing else. -/
theorem scalarFloat_writes {i : Instr} {g : BitVec 4} {d : BitVec 6} {s : State} (f : State → W32 × Nat)
    (he : exec i s = scalarFloat i g d f s) (hb : i.wouldBlock = false) (h : Takes i g .scalar s) :
    WritesSF i d ((f s).1.zeroExtend 64) (f s).2 s := by
  have fr := framed_setS i s d ((f s).1.zeroExtend 64) s.nextPc
  refine ⟨(((s.setS d ((f s).1.zeroExtend 64)).addFx (f s).2).noRetry i).goto s.nextPc, ?_, ?_, ?_, ?_,
    framed_addFx i s _ _ _ _ (ws_setS _ _ _) fr.bytes fr.poison (setS_rest _ _ _)⟩
  · rw [he, scalarFloat, run_takes h, settle_done, completed_plain hb]
  · intro hd
    rw [getS_plain, getS_addFx, getS_setS _ _ _ hd]
  · rw [flags_plain, flags_addFx, flags_setS]
  · rw [cx_plain]

theorem flags_setV (s : State) (d : BitVec 5) (m : W32) (f : Nat → W32) : (s.setV d m f).flags = s.flags := by
  have hd := d.isLt
  have hb (n x : Nat) (hx : s.ws + 0x1240 ≤ x) : Memory.readBytes (s.setV d m f).mem x n = Memory.readBytes s.mem x n := by
    induction n generalizing x with
    | zero => rfl
    | succ n ih =>
      rw [Memory.readBytes, Memory.readBytes, ih (x + 1) (by omega)]
      congr 1
      refine State.byte_store_other s _ x (setV_runs s d _ _ x ?_)
      simp only [inV]
      omega
  rw [State.flags, State.flags, State.item, State.item, State.peek, State.peek, ws_setV, hb 8 _ (Nat.le_refl _)]

/-- A vector float operation that takes effect writes its guarded lanes, gathers their flags, and does nothing else. -/
theorem vectorFloat_writes {i : Instr} {g : BitVec 4} {d : BitVec 5} {s : State} (f : State → Nat → W32 × Nat)
    (he : exec i s = vectorFloat i g d f s) (hb : i.wouldBlock = false) (h : Takes i g .lanes s) :
    WritesVF i d (s.guard g) (fun j => (f s j).1) (laneFx (s.guard g) (fun j => (f s j).2)) s := by
  refine ⟨(((s.setV d (s.guard g) (fun j => (f s j).1)).addFx (laneFx (s.guard g) (fun j => (f s j).2))).noRetry i).goto
    s.nextPc, ?_, ?_, ?_, ?_, framed_addFx i s _ _ _ _ (ws_setV _ _ _ _) ?_ ?_ (store_rest _ _)⟩
  · rw [he, vectorFloat, run_takes h, settle_done, completed_plain hb]
  · intro j hj
    rw [getV_plain, getV_addFx _ _ _ _ hj, getV_setV _ _ _ _ _ hj]
  · rw [flags_plain, flags_addFx, flags_setV]
  · rw [cx_plain]
  · exact fun a ha => State.byte_store_other s _ a (setV_runs s d _ _ a ha)
  · exact fun a ha => State.poisoned_store s _ a ha

end Sys2Proof.Machine
end

