-- ==== Sys2Proof/Laws/Complete.lean ====
section
/-!
SUPPORT. How an instruction completes, said once: what `settle` does with a body's effect, for plain and for would-block
instructions, and what stays of the effect afterwards.
-/

namespace Sys2Proof.Machine

/-- What a context change of the issuing context leaves of an effect whose memory it shares but for the bytes of B. -/
theorem framed_effect (e t : State) (f : Ctx → Ctx) (B : Nat → Prop)
    (hm : ∀ a, ¬ B a → t.byte a = e.byte a) (hp : ∀ a, t.poisoned a = true → e.poisoned a = true)
    (ht : t = { e.modCx f with mem := t.mem, poison := t.poison, wrote := t.wrote, choices := t.choices })
    (hf : f e.cx = { e.cx with pc := (f e.cx).pc, chain := [], lost := 0, retry := (f e.cx).retry, resv := (f e.cx).resv,
                                resvLost := (f e.cx).resvLost, past := [] }) : Framed e t B := by
  have hc : t.cores = (e.modCx f).cores := by rw [ht]
  have hu : t.cur = e.cur := by rw [ht]; rfl
  have hx (n k : Nat) : t.ctx n k = (e.modCx f).ctx n k := by simp only [State.ctx, State.core, hc]
  refine ⟨hm, hp, ?_, ?_, ?_, hu, ?_, ?_, ?_, ?_, ?_⟩
  · rw [ht]; rfl
  · rw [ht]; rfl
  · rw [ht]; rfl
  · rw [ht]; rfl
  · rw [ht]; rfl
  · intro n k hk
    rw [hx, State.modCx, State.ctx_modCtx_other _ _ _ _ _ _ hk]
  · intro n
    have hn : t.core n = (e.modCx f).core n := by simp only [State.core, hc]
    rw [hn, State.modCx, State.modCtx, State.setCtx, State.core_modCore]
    split
    · next h => rw [h]
    · rfl
  · have h1 : t.cx = f e.cx := by
      unfold State.cx
      rw [hu, hx]
      simp [State.modCx]
    rw [h1]
    exact hf

/-- The P6 that a would-block instruction writes. -/
theorem setP6_mem (e : State) : (e.setP 6 0xFFFFFFFF) = e.poke (e.ws + 0x1200 + 4 * 6) 4 0xFFFFFFFF := rfl

/-- The context as a would-block instruction that completes leaves it. -/
def Ctx.blockDone (pc : PCVal) (x : Ctx) : Ctx :=
  { x with retry := none, resv := x.resvAfter, resvLost := false, pc := pc, chain := [], lost := 0, past := [] }

theorem modCx_modCx (u : State) (f k : Ctx → Ctx) : (u.modCx f).modCx k = u.modCx (fun x => k (f x)) := by
  simp only [State.modCx, State.modCtx_cur, State.modCtx_modCtx]

theorem block_eq (e P : State) (pc : PCVal) (m : List Host.Cell) (p : List Nat) (w : List (Nat × Nat)) (c : List Choice)
    (hP : P = { e with mem := m, poison := p, wrote := w }) :
    ({ P.modCx (fun x => { x with retry := none, resv := x.resvAfter, resvLost := false }) with choices := c } : State).goto pc =
      { e.modCx (Ctx.blockDone pc) with mem := m, poison := p, wrote := w, choices := c } := by
  subst hP
  have h1 : ({ ({ e with mem := m, poison := p, wrote := w } : State).modCx (fun x => { x with retry := none, resv := x.resvAfter, resvLost := false }) with
      choices := c } : State).goto pc = { (({ e with mem := m, poison := p, wrote := w } : State).modCx (fun x => { x with retry := none, resv := x.resvAfter, resvLost := false })).modCx
        (fun x => { x with pc := pc, chain := [], lost := 0, past := [] }) with choices := c } := rfl
  rw [h1, modCx_modCx]
  rfl

theorem setP6_rest (e : State) :
    e.setP 6 0xFFFFFFFF =
      { e with mem := (e.setP 6 0xFFFFFFFF).mem, poison := (e.setP 6 0xFFFFFFFF).poison, wrote := (e.setP 6 0xFFFFFFFF).wrote } := by
  rw [setP6_mem]
  exact poke_rest _ _ _ _

/-- Completion of a would-block instruction, as one record. -/
theorem completed_block {i : Instr} (h : i.wouldBlock = true) (e : State) (pc : PCVal) :
    (e.completed i).goto pc =
      { e.modCx (Ctx.blockDone pc) with
        mem := (e.setP 6 0xFFFFFFFF).mem, poison := (e.setP 6 0xFFFFFFFF).poison, wrote := (e.setP 6 0xFFFFFFFF).wrote,
        choices := e.choices.tail } := by
  have hc : ((e.setP 6 0xFFFFFFFF).modCx (fun x => { x with retry := none, resv := x.resvAfter, resvLost := false })).choices.tail =
      e.choices.tail := by
    rw [State.modCx_choices, setP6_rest]
  simp only [State.completed, h, if_true]
  rw [hc]
  exact block_eq e _ pc _ _ _ _ (setP6_rest e)

/-- A body's effect completes. -/
theorem completes_done {i : Instr} {s e : State} {pc : PCVal} (h : exec i s = .next ((e.completed i).goto pc)) :
    Completes i s e pc := by
  refine ⟨_, h, ?_⟩
  by_cases hb : i.wouldBlock = true
  · have fr : Framed e ((e.completed i).goto pc) (fun a => i.wouldBlock = true ∧ inP e 6 a) := by
      rw [completed_block hb]
      generalize hm : (e.setP 6 0xFFFFFFFF).mem = m
      generalize hp : (e.setP 6 0xFFFFFFFF).poison = p
      generalize (e.setP 6 0xFFFFFFFF).wrote = w
      refine framed_effect e _ (Ctx.blockDone pc) _ ?_ ?_ rfl rfl
      · intro a ha
        show Memory.read m a = _
        rw [← hm, setP6_mem]
        refine State.byte_poke_other e _ _ _ _ ?_
        have ha' : ¬ inP e 6 a := fun x => ha ⟨hb, x⟩
        simp only [inP, show (6 : BitVec 3).toNat = 6 by decide, not_and,
          not_lt] at ha'
        rcases Nat.lt_or_ge a (e.ws + 0x1200 + 4 * 6) with h1 | h1
        · exact .inl h1
        · exact .inr (ha' (by decide) h1)
      · intro a ha
        have h2 : (e.setP 6 0xFFFFFFFF).poisoned a = true := by
          unfold State.poisoned at ha ⊢
          rw [hp]
          exact ha
        rw [setP6_mem] at h2
        exact State.poisoned_store e _ a h2
    have hw := fr.ws
    refine ⟨?_, fun _ => ?_, ?_, fr⟩
    · rw [completed_block hb]
      simp [State.cx, State.ctx, State.core, State.modCx, State.modCtx, State.setCtx, State.modCore, State.setCore,
        mapGet_mapSet, Core.ctx, Ctx.blockDone]
    · have hp : ((e.completed i).goto pc).peek = (e.setP 6 0xFFFFFFFF).peek := by
        rw [completed_block hb]
        generalize hm : (e.setP 6 0xFFFFFFFF).mem = m
        funext x n
        unfold State.peek
        rw [hm]
      unfold State.getP
      rw [if_neg (by decide), hw, hp, setP6_mem, show (6 : BitVec 3).toNat = 6 by decide, State.peek_poke_same]
      decide
    · rw [completed_block hb, if_pos hb]
  · have hb' : i.wouldBlock = false := by simpa using hb
    rw [completed_plain hb']
    refine ⟨by rw [cx_plain], fun x => absurd x hb, ?_, ?_⟩
    · rw [if_neg hb]; rfl
    · refine framed_plain i e e pc _ (fun _ _ => rfl) (fun _ x => x) rfl

/-- An instruction that takes effect and is done. -/
theorem completes_of {i : Instr} {g : BitVec 4} {u : GuardUse} {s e : State} {body : State → Res}
    (he : exec i s = run i g u s body) (h : Takes i g u s) (hb : body s = .done e) : Completes i s e s.nextPc := by
  refine completes_done ?_
  rw [he, run_takes h, hb, settle_done]

/-- An instruction that takes effect and jumps. -/
theorem jumps_of {i : Instr} {g : BitVec 4} {u : GuardUse} {s e : State} {pc : PCVal} {body : State → Res}
    (he : exec i s = run i g u s body) (h : Takes i g u s) (hb : body s = .jump e pc) : Completes i s e pc := by
  refine completes_done ?_
  rw [he, run_takes h, hb, settle_jump]

/-- A would-block instruction whose effect is the write of S[d]. -/
theorem returns_of {i : Instr} {g : BitVec 4} {u : GuardUse} {s e : State} {d : BitVec 6} {v : W64} {body : State → Res}
    (he : exec i s = run i g u s body) (h : Takes i g u s) (hw : i.wouldBlock = true)
    (hb : body s = .done (e.setS d v)) : Returns i d v s e := by
  obtain ⟨t, h1, h2, h3, -, h5⟩ := completes_of he h hb
  have hws : t.ws = e.ws := by rw [h5.ws, ws_setS]
  have hd := d.isLt
  have fr := framed_setS i e d v s.nextPc
  have hP (a : Nat) : inP (e.setS d v) 6 a ↔ inP e 6 a := by unfold inP; rw [ws_setS]
  refine ⟨t, h1, ?_, h3 hw, h2, ?_, ?_, ?_, ?_, ?_, ?_, ?_, ?_, ?_, ?_, ?_⟩
  · intro hd0
    rw [← getS_setS e d v hd0]
    have hx : ∀ n x, x + n ≤ e.ws + 0x200 → Memory.readBytes t.mem x n = Memory.readBytes (e.setS d v).mem x n := by
      intro n
      induction n with
      | zero => intro x _; rfl
      | succ n ih =>
        intro x hx
        rw [Memory.readBytes, Memory.readBytes, ih (x + 1) (by omega)]
        congr 1
        refine h5.bytes x ?_
        rintro ⟨-, -, hlo, -⟩
        rw [ws_setS] at hlo
        omega
    unfold State.getS State.peek
    rw [if_neg hd0, if_neg hd0, hws, ws_setS, hx 8 _ (by omega)]
  · intro a ha
    rw [not_or] at ha
    rw [h5.bytes a (fun x => ha.2 ((hP a).mp x.2))]
    exact fr.bytes a ha.1
  · exact fun a ha => fr.poison a (h5.poison a ha)
  · exact h5.quads.trans fr.quads
  · exact h5.tiles.trans fr.tiles
  · exact h5.hub.trans fr.hub
  · exact h5.cur.trans fr.cur
  · exact h5.schedule.trans fr.schedule
  · exact h5.draws.trans fr.draws
  · intro n k hk
    have hc : (e.setS d v).cores = e.cores := by rw [setS_rest]
    have hu : (e.setS d v).cur = e.cur := by rw [setS_rest]
    rw [h5.contexts n k (by rw [hu]; exact hk)]
    simp only [State.ctx, State.core, hc]
  · intro n
    have hc : (e.setS d v).cores = e.cores := by rw [setS_rest]
    rw [h5.cores n]
    simp only [State.core, hc]
  · have hcx : (e.setS d v).cx = e.cx := by
      have hc : (e.setS d v).cores = e.cores := by rw [setS_rest]
      have hu : (e.setS d v).cur = e.cur := by rw [setS_rest]
      simp only [State.cx, State.ctx, State.core, hc, hu]
    rw [← hcx]
    exact h5.own

end Sys2Proof.Machine
end

