-- ==== Sys2Proof/Laws/Decode.lean ====
section
/-!
SUPPORT. Fields of packed words: what the decoder reads of a word the encoder packs, field by field (R61).
-/

namespace Sys2Proof

theorem extract_high {w v : Nat} (x : BitVec w) (y : BitVec v) (s n : Nat) (h : v ≤ s) :
    (x ++ y).extractLsb' s n = x.extractLsb' (s - v) n := by
  ext i hi
  simp only [BitVec.getElem_extractLsb', BitVec.getLsbD_append]
  rw [if_neg (by omega)]
  congr 1; omega

theorem extract_low {w v : Nat} (x : BitVec w) (y : BitVec v) (s n : Nat) (h : s + n ≤ v) :
    (x ++ y).extractLsb' s n = y.extractLsb' s n := by
  ext i hi
  simp only [BitVec.getElem_extractLsb', BitVec.getLsbD_append]
  rw [if_pos (by omega)]

theorem extract_all {w : Nat} (x : BitVec w) : x.extractLsb' 0 w = x := by
  ext i hi; simp

section
variable (op : BitVec 6) (g : BitVec 4) (d a b : BitVec 6) (fn : BitVec 4)
@[simp] theorem wOp_packA : wOp (packA op g d a b fn) = op := by
  unfold wOp packA
  repeat
    first
    | exact extract_all _
    | refine (extract_high _ _ _ _ (by decide)).trans ?_
    | refine (extract_low _ _ _ _ (by decide)).trans ?_
@[simp] theorem wG_packA : wG (packA op g d a b fn) = g := by
  unfold wG packA
  repeat
    first
    | exact extract_all _
    | refine (extract_high _ _ _ _ (by decide)).trans ?_
    | refine (extract_low _ _ _ _ (by decide)).trans ?_
@[simp] theorem wD_packA : wD (packA op g d a b fn) = d := by
  unfold wD packA
  repeat
    first
    | exact extract_all _
    | refine (extract_high _ _ _ _ (by decide)).trans ?_
    | refine (extract_low _ _ _ _ (by decide)).trans ?_
@[simp] theorem wA_packA : wA (packA op g d a b fn) = a := by
  unfold wA packA
  repeat
    first
    | exact extract_all _
    | refine (extract_high _ _ _ _ (by decide)).trans ?_
    | refine (extract_low _ _ _ _ (by decide)).trans ?_
@[simp] theorem wB_packA : wB (packA op g d a b fn) = b := by
  unfold wB packA
  repeat
    first
    | exact extract_all _
    | refine (extract_high _ _ _ _ (by decide)).trans ?_
    | refine (extract_low _ _ _ _ (by decide)).trans ?_
@[simp] theorem wFn_packA : wFn (packA op g d a b fn) = fn := by
  unfold wFn packA
  repeat
    first
    | exact extract_all _
    | refine (extract_high _ _ _ _ (by decide)).trans ?_
    | refine (extract_low _ _ _ _ (by decide)).trans ?_
end

section
variable (op : BitVec 6) (g : BitVec 4) (d a : BitVec 6) (i : BitVec 10)
@[simp] theorem wOp_packI : wOp (packI op g d a i) = op := by
  unfold wOp packI
  repeat
    first
    | exact extract_all _
    | refine (extract_high _ _ _ _ (by decide)).trans ?_
    | refine (extract_low _ _ _ _ (by decide)).trans ?_
@[simp] theorem wG_packI : wG (packI op g d a i) = g := by
  unfold wG packI
  repeat
    first
    | exact extract_all _
    | refine (extract_high _ _ _ _ (by decide)).trans ?_
    | refine (extract_low _ _ _ _ (by decide)).trans ?_
@[simp] theorem wD_packI : wD (packI op g d a i) = d := by
  unfold wD packI
  repeat
    first
    | exact extract_all _
    | refine (extract_high _ _ _ _ (by decide)).trans ?_
    | refine (extract_low _ _ _ _ (by decide)).trans ?_
@[simp] theorem wA_packI : wA (packI op g d a i) = a := by
  unfold wA packI
  repeat
    first
    | exact extract_all _
    | refine (extract_high _ _ _ _ (by decide)).trans ?_
    | refine (extract_low _ _ _ _ (by decide)).trans ?_
@[simp] theorem wImm10_packI : wImm10 (packI op g d a i) = i := by
  unfold wImm10 packI
  repeat
    first
    | exact extract_all _
    | refine (extract_high _ _ _ _ (by decide)).trans ?_
    | refine (extract_low _ _ _ _ (by decide)).trans ?_
end

section
variable (op : BitVec 6) (g : BitVec 4) (d a : BitVec 6) (k : BitVec 3) (o : BitVec 7)
@[simp] theorem wOp_packM : wOp (packM op g d a k o) = op := by
  unfold wOp packM
  repeat
    first
    | exact extract_all _
    | refine (extract_high _ _ _ _ (by decide)).trans ?_
    | refine (extract_low _ _ _ _ (by decide)).trans ?_
@[simp] theorem wG_packM : wG (packM op g d a k o) = g := by
  unfold wG packM
  repeat
    first
    | exact extract_all _
    | refine (extract_high _ _ _ _ (by decide)).trans ?_
    | refine (extract_low _ _ _ _ (by decide)).trans ?_
@[simp] theorem wD_packM : wD (packM op g d a k o) = d := by
  unfold wD packM
  repeat
    first
    | exact extract_all _
    | refine (extract_high _ _ _ _ (by decide)).trans ?_
    | refine (extract_low _ _ _ _ (by decide)).trans ?_
@[simp] theorem wA_packM : wA (packM op g d a k o) = a := by
  unfold wA packM
  repeat
    first
    | exact extract_all _
    | refine (extract_high _ _ _ _ (by decide)).trans ?_
    | refine (extract_low _ _ _ _ (by decide)).trans ?_
@[simp] theorem wK_packM : wK (packM op g d a k o) = k := by
  unfold wK packM
  repeat
    first
    | exact extract_all _
    | refine (extract_high _ _ _ _ (by decide)).trans ?_
    | refine (extract_low _ _ _ _ (by decide)).trans ?_
@[simp] theorem wOff7_packM : wOff7 (packM op g d a k o) = o := by
  unfold wOff7 packM
  repeat
    first
    | exact extract_all _
    | refine (extract_high _ _ _ _ (by decide)).trans ?_
    | refine (extract_low _ _ _ _ (by decide)).trans ?_
end

section
variable (op : BitVec 6) (g : BitVec 4) (pd pe : BitVec 3) (a b : BitVec 6) (cc : BitVec 4)
@[simp] theorem wOp_packC : wOp (packC op g pd pe a b cc) = op := by
  unfold wOp packC
  repeat
    first
    | exact extract_all _
    | refine (extract_high _ _ _ _ (by decide)).trans ?_
    | refine (extract_low _ _ _ _ (by decide)).trans ?_
@[simp] theorem wG_packC : wG (packC op g pd pe a b cc) = g := by
  unfold wG packC
  repeat
    first
    | exact extract_all _
    | refine (extract_high _ _ _ _ (by decide)).trans ?_
    | refine (extract_low _ _ _ _ (by decide)).trans ?_
@[simp] theorem wPd_packC : wPd (packC op g pd pe a b cc) = pd := by
  unfold wPd packC
  repeat
    first
    | exact extract_all _
    | refine (extract_high _ _ _ _ (by decide)).trans ?_
    | refine (extract_low _ _ _ _ (by decide)).trans ?_
@[simp] theorem wPe_packC : wPe (packC op g pd pe a b cc) = pe := by
  unfold wPe packC
  repeat
    first
    | exact extract_all _
    | refine (extract_high _ _ _ _ (by decide)).trans ?_
    | refine (extract_low _ _ _ _ (by decide)).trans ?_
@[simp] theorem wA_packC : wA (packC op g pd pe a b cc) = a := by
  unfold wA packC
  repeat
    first
    | exact extract_all _
    | refine (extract_high _ _ _ _ (by decide)).trans ?_
    | refine (extract_low _ _ _ _ (by decide)).trans ?_
@[simp] theorem wB_packC : wB (packC op g pd pe a b cc) = b := by
  unfold wB packC
  repeat
    first
    | exact extract_all _
    | refine (extract_high _ _ _ _ (by decide)).trans ?_
    | refine (extract_low _ _ _ _ (by decide)).trans ?_
@[simp] theorem wFn_packC : wFn (packC op g pd pe a b cc) = cc := by
  unfold wFn packC
  repeat
    first
    | exact extract_all _
    | refine (extract_high _ _ _ _ (by decide)).trans ?_
    | refine (extract_low _ _ _ _ (by decide)).trans ?_
end

section
variable (op : BitVec 6) (g : BitVec 4) (pd pa pb : BitVec 3) (fn : BitVec 4)
@[simp] theorem wOp_packQ : wOp (packQ op g pd pa pb fn) = op := by
  unfold wOp packQ
  repeat
    first
    | exact extract_all _
    | refine (extract_high _ _ _ _ (by decide)).trans ?_
    | refine (extract_low _ _ _ _ (by decide)).trans ?_
@[simp] theorem wG_packQ : wG (packQ op g pd pa pb fn) = g := by
  unfold wG packQ
  repeat
    first
    | exact extract_all _
    | refine (extract_high _ _ _ _ (by decide)).trans ?_
    | refine (extract_low _ _ _ _ (by decide)).trans ?_
@[simp] theorem wPd_packQ : wPd (packQ op g pd pa pb fn) = pd := by
  unfold wPd packQ
  repeat
    first
    | exact extract_all _
    | refine (extract_high _ _ _ _ (by decide)).trans ?_
    | refine (extract_low _ _ _ _ (by decide)).trans ?_
@[simp] theorem wFn_packQ : wFn (packQ op g pd pa pb fn) = fn := by
  unfold wFn packQ
  repeat
    first
    | exact extract_all _
    | refine (extract_high _ _ _ _ (by decide)).trans ?_
    | refine (extract_low _ _ _ _ (by decide)).trans ?_
end

section
variable (op : BitVec 6) (g : BitVec 4) (o : BitVec 22)
@[simp] theorem wOp_packB : wOp (packB op g o) = op := by
  unfold wOp packB
  repeat
    first
    | exact extract_all _
    | refine (extract_high _ _ _ _ (by decide)).trans ?_
    | refine (extract_low _ _ _ _ (by decide)).trans ?_
@[simp] theorem wG_packB : wG (packB op g o) = g := by
  unfold wG packB
  repeat
    first
    | exact extract_all _
    | refine (extract_high _ _ _ _ (by decide)).trans ?_
    | refine (extract_low _ _ _ _ (by decide)).trans ?_
end

section
variable (op : BitVec 6) (g : BitVec 4) (d a b : BitVec 5) (t : BitVec 2) (fn : BitVec 5)
@[simp] theorem wOp_packV : wOp (packV op g d a b t fn) = op := by
  unfold wOp packV
  repeat
    first
    | exact extract_all _
    | refine (extract_high _ _ _ _ (by decide)).trans ?_
    | refine (extract_low _ _ _ _ (by decide)).trans ?_
@[simp] theorem wG_packV : wG (packV op g d a b t fn) = g := by
  unfold wG packV
  repeat
    first
    | exact extract_all _
    | refine (extract_high _ _ _ _ (by decide)).trans ?_
    | refine (extract_low _ _ _ _ (by decide)).trans ?_
@[simp] theorem wVd_packV : wVd (packV op g d a b t fn) = d := by
  unfold wVd packV
  repeat
    first
    | exact extract_all _
    | refine (extract_high _ _ _ _ (by decide)).trans ?_
    | refine (extract_low _ _ _ _ (by decide)).trans ?_
@[simp] theorem wVa_packV : wVa (packV op g d a b t fn) = a := by
  unfold wVa packV
  repeat
    first
    | exact extract_all _
    | refine (extract_high _ _ _ _ (by decide)).trans ?_
    | refine (extract_low _ _ _ _ (by decide)).trans ?_
@[simp] theorem wVb_packV : wVb (packV op g d a b t fn) = b := by
  unfold wVb packV
  repeat
    first
    | exact extract_all _
    | refine (extract_high _ _ _ _ (by decide)).trans ?_
    | refine (extract_low _ _ _ _ (by decide)).trans ?_
@[simp] theorem wType_packV : wType (packV op g d a b t fn) = t := by
  unfold wType packV
  repeat
    first
    | exact extract_all _
    | refine (extract_high _ _ _ _ (by decide)).trans ?_
    | refine (extract_low _ _ _ _ (by decide)).trans ?_
@[simp] theorem wFn5_packV : wFn5 (packV op g d a b t fn) = fn := by
  unfold wFn5 packV
  repeat
    first
    | exact extract_all _
    | refine (extract_high _ _ _ _ (by decide)).trans ?_
    | refine (extract_low _ _ _ _ (by decide)).trans ?_
end

section
variable (op : BitVec 6) (g : BitVec 4) (x : BitVec 6) (v : BitVec 5) (t : BitVec 2) (fn : BitVec 5)
@[simp] theorem wOp_packVX : wOp (packVX op g x v t fn) = op := by
  unfold wOp packVX
  repeat
    first
    | exact extract_all _
    | refine (extract_high _ _ _ _ (by decide)).trans ?_
    | refine (extract_low _ _ _ _ (by decide)).trans ?_
@[simp] theorem wG_packVX : wG (packVX op g x v t fn) = g := by
  unfold wG packVX
  repeat
    first
    | exact extract_all _
    | refine (extract_high _ _ _ _ (by decide)).trans ?_
    | refine (extract_low _ _ _ _ (by decide)).trans ?_
@[simp] theorem wD_packVX : wD (packVX op g x v t fn) = x := by
  unfold wD packVX
  repeat
    first
    | exact extract_all _
    | refine (extract_high _ _ _ _ (by decide)).trans ?_
    | refine (extract_low _ _ _ _ (by decide)).trans ?_
@[simp] theorem wType_packVX : wType (packVX op g x v t fn) = t := by
  unfold wType packVX
  repeat
    first
    | exact extract_all _
    | refine (extract_high _ _ _ _ (by decide)).trans ?_
    | refine (extract_low _ _ _ _ (by decide)).trans ?_
@[simp] theorem wFn5_packVX : wFn5 (packVX op g x v t fn) = fn := by
  unfold wFn5 packVX
  repeat
    first
    | exact extract_all _
    | refine (extract_high _ _ _ _ (by decide)).trans ?_
    | refine (extract_low _ _ _ _ (by decide)).trans ?_
end

section
variable (op : BitVec 6) (g : BitVec 4) (d a : BitVec 5) (f : BitVec 6) (p : BitVec 2) (fn : BitVec 4)
@[simp] theorem wOp_packVC : wOp (packVC op g d a f p fn) = op := by
  unfold wOp packVC
  repeat
    first
    | exact extract_all _
    | refine (extract_high _ _ _ _ (by decide)).trans ?_
    | refine (extract_low _ _ _ _ (by decide)).trans ?_
@[simp] theorem wG_packVC : wG (packVC op g d a f p fn) = g := by
  unfold wG packVC
  repeat
    first
    | exact extract_all _
    | refine (extract_high _ _ _ _ (by decide)).trans ?_
    | refine (extract_low _ _ _ _ (by decide)).trans ?_
@[simp] theorem wVd_packVC : wVd (packVC op g d a f p fn) = d := by
  unfold wVd packVC
  repeat
    first
    | exact extract_all _
    | refine (extract_high _ _ _ _ (by decide)).trans ?_
    | refine (extract_low _ _ _ _ (by decide)).trans ?_
@[simp] theorem wVa_packVC : wVa (packVC op g d a f p fn) = a := by
  unfold wVa packVC
  repeat
    first
    | exact extract_all _
    | refine (extract_high _ _ _ _ (by decide)).trans ?_
    | refine (extract_low _ _ _ _ (by decide)).trans ?_
@[simp] theorem wFn_packVC : wFn (packVC op g d a f p fn) = fn := by
  unfold wFn packVC
  repeat
    first
    | exact extract_all _
    | refine (extract_high _ _ _ _ (by decide)).trans ?_
    | refine (extract_low _ _ _ _ (by decide)).trans ?_
end

section
variable (op : BitVec 6) (g : BitVec 4) (d : BitVec 5) (a b : BitVec 6) (fn : BitVec 4)
@[simp] theorem wOp_packVM : wOp (packVM op g d a b fn) = op := by
  unfold wOp packVM
  repeat
    first
    | exact extract_all _
    | refine (extract_high _ _ _ _ (by decide)).trans ?_
    | refine (extract_low _ _ _ _ (by decide)).trans ?_
@[simp] theorem wG_packVM : wG (packVM op g d a b fn) = g := by
  unfold wG packVM
  repeat
    first
    | exact extract_all _
    | refine (extract_high _ _ _ _ (by decide)).trans ?_
    | refine (extract_low _ _ _ _ (by decide)).trans ?_
@[simp] theorem wVd_packVM : wVd (packVM op g d a b fn) = d := by
  unfold wVd packVM
  repeat
    first
    | exact extract_all _
    | refine (extract_high _ _ _ _ (by decide)).trans ?_
    | refine (extract_low _ _ _ _ (by decide)).trans ?_
@[simp] theorem wA_packVM : wA (packVM op g d a b fn) = a := by
  unfold wA packVM
  repeat
    first
    | exact extract_all _
    | refine (extract_high _ _ _ _ (by decide)).trans ?_
    | refine (extract_low _ _ _ _ (by decide)).trans ?_
@[simp] theorem wB_packVM : wB (packVM op g d a b fn) = b := by
  unfold wB packVM
  repeat
    first
    | exact extract_all _
    | refine (extract_high _ _ _ _ (by decide)).trans ?_
    | refine (extract_low _ _ _ _ (by decide)).trans ?_
@[simp] theorem wFn_packVM : wFn (packVM op g d a b fn) = fn := by
  unfold wFn packVM
  repeat
    first
    | exact extract_all _
    | refine (extract_high _ _ _ _ (by decide)).trans ?_
    | refine (extract_low _ _ _ _ (by decide)).trans ?_
end

section
variable (op : BitVec 6) (g : BitVec 4) (t a : BitVec 6) (dir : BitVec 2) (k : BitVec 4) (v : BitVec 1) (fn : BitVec 3)
@[simp] theorem wOp_packN : wOp (packN op g t a dir k v fn) = op := by
  unfold wOp packN
  repeat
    first
    | exact extract_all _
    | refine (extract_high _ _ _ _ (by decide)).trans ?_
    | refine (extract_low _ _ _ _ (by decide)).trans ?_
@[simp] theorem wG_packN : wG (packN op g t a dir k v fn) = g := by
  unfold wG packN
  repeat
    first
    | exact extract_all _
    | refine (extract_high _ _ _ _ (by decide)).trans ?_
    | refine (extract_low _ _ _ _ (by decide)).trans ?_
@[simp] theorem wD_packN : wD (packN op g t a dir k v fn) = t := by
  unfold wD packN
  repeat
    first
    | exact extract_all _
    | refine (extract_high _ _ _ _ (by decide)).trans ?_
    | refine (extract_low _ _ _ _ (by decide)).trans ?_
@[simp] theorem wA_packN : wA (packN op g t a dir k v fn) = a := by
  unfold wA packN
  repeat
    first
    | exact extract_all _
    | refine (extract_high _ _ _ _ (by decide)).trans ?_
    | refine (extract_low _ _ _ _ (by decide)).trans ?_
end

section
variable (op : BitVec 6) (p : BitVec 26)
@[simp] theorem wOp_packP : wOp (packP op p) = op := by
  unfold wOp packP
  repeat
    first
    | exact extract_all _
    | refine (extract_high _ _ _ _ (by decide)).trans ?_
    | refine (extract_low _ _ _ _ (by decide)).trans ?_
end

end Sys2Proof
end

