-- ==== Sys2Proof/Laws/Home.lean ====
section
/-!
SUPPORT. What requests at the lines' homes, and lines moving into the caches and out of them, leave as it is: memory,
quads, the issuing context (R197 to R200, R263, R264).
-/

namespace Sys2Proof.Machine

/-- Memory, quads and the issuing context of two states agree. -/
def AtHome (s t : State) : Prop := t.mem = s.mem ∧ t.quads = s.quads ∧ t.cur = s.cur

theorem AtHome.refl (s : State) : AtHome s s := ⟨rfl, rfl, rfl⟩
theorem AtHome.trans {s t u : State} (h : AtHome s t) (k : AtHome t u) : AtHome s u :=
  ⟨k.1.trans h.1, k.2.1.trans h.2.1, k.2.2.trans h.2.2⟩

/-- Steps that keep memory keep it when folded over a list. -/
theorem atHome_foldl {α : Type} (f : State → α → State) (h : ∀ s a, AtHome s (f s a)) (l : List α) (s : State) :
    AtHome s (l.foldl f s) := by
  induction l generalizing s with
  | nil => exact AtHome.refl s
  | cons a l ih => exact (h s a).trans (ih (f s a))

theorem atHome_setDir (s : State) (l : Nat) (e : DirEntry) : AtHome s (s.setDir l e) := AtHome.refl s
theorem atHome_modHub (s : State) (f : Hub → Hub) : AtHome s (s.modHub f) := AtHome.refl s
theorem atHome_modTile (s : State) (n : Nat) (f : Tile → Tile) : AtHome s (s.modTile n f) := AtHome.refl s
theorem atHome_modCore (s : State) (n : Nat) (f : Core → Core) : AtHome s (s.modCore n f) := AtHome.refl s
theorem atHome_poisonByLine (s : State) (l : Nat) : AtHome s (s.poisonByLine l) := by
  unfold State.poisonByLine; dsimp only; split <;> exact ⟨rfl, rfl, rfl⟩
theorem atHome_poisonByWord (s : State) (l : Nat) : AtHome s (s.poisonByWord l) := by
  unfold State.poisonByWord; split <;> exact ⟨rfl, rfl, rfl⟩
theorem atHome_chargeLine (s : State) (vf l : Nat) : AtHome s (s.chargeLine vf l) := by
  unfold State.chargeLine; split <;> exact ⟨rfl, rfl, rfl⟩
theorem atHome_dropLine (s : State) (p l : Nat) : AtHome s (s.dropLine p l) := by
  unfold State.dropLine
  split
  · exact AtHome.refl s
  · dsimp only
    refine AtHome.trans (t := _) ?_ (AtHome.trans (atHome_poisonByLine _ l) ⟨rfl, rfl, rfl⟩)
    split
    · split
      · exact atHome_chargeLine s _ _
      · exact AtHome.refl s
    · exact AtHome.refl s
theorem atHome_takeLine (s : State) (p l : Nat) : AtHome s (s.takeLine p l) := by
  unfold State.takeLine; split <;> exact ⟨rfl, rfl, rfl⟩
theorem atHome_markL2 (s : State) (p l : Nat) (f : L2Line → L2Line) : AtHome s (s.markL2 p l f) := AtHome.refl s

/-- What a culture's action adds to a change of the directory and the lists of lines. -/
theorem atHome_ite {s : State} (c : Prop) [Decidable c] {t u : State} (h : AtHome s t) (k : AtHome s u) :
    AtHome s (if c then t else u) := by
  split
  · exact h
  · exact k
theorem atHome_takes (s : State) (r : Option Nat) (l : Nat) :
    AtHome s (match r with | some p => s.takeLine p l | none => s) := by
  cases r with
  | none => exact AtHome.refl s
  | some p => exact atHome_takeLine s p l
theorem atHome_drops (s : State) (ps : List Nat) (l : Nat) : AtHome s (ps.foldl (fun t p => t.dropLine p l) s) :=
  atHome_foldl _ (fun u p => atHome_dropLine u p l) ps s

/-- The lines that an action moves: the requester takes the line, the sharers lose it. -/
theorem atHome_acted {s u : State} (h : AtHome s u) (r : Option Nat) (l : Nat) (c d : Prop) [Decidable c] [Decidable d]
    (ps : List Nat) :
    AtHome s (if d then ps.foldl (fun t p => t.dropLine p l) (if c then (match r with | some p => u.takeLine p l | none => u) else u)
      else if c then (match r with | some p => u.takeLine p l | none => u) else u) :=
  have k : AtHome s (if c then (match r with | some p => u.takeLine p l | none => u) else u) :=
    atHome_ite _ (h.trans (atHome_takes u r l)) h
  atHome_ite _ (k.trans (atHome_drops _ ps l)) k

theorem atHome_cultureAct (s : State) (l ev : Nat) (r : Option Nat) (m : Nat) : AtHome s (s.cultureAct l ev r m) := by
  unfold State.cultureAct
  dsimp only
  split
  · generalize ((s.dirOf l).stock (s.rangeSlot (64 * l)) ev r m) = d
    have h : AtHome s (d.2.foldl (fun t p => t.dropLine p l) (s.setDir l { d.1 with slot := s.rangeSlot (64 * l) })) :=
      (atHome_setDir s l _).trans (atHome_drops _ _ l)
    cases r with
    | none => exact h
    | some p => exact atHome_ite _ (h.trans (atHome_takeLine _ _ _)) h
  · refine atHome_ite _ ?_ (AtHome.refl s)
    exact atHome_acted (atHome_setDir s l _) r l _ _ _

theorem atHome_answers (s : State) (e : DirEntry) (l p : Nat) : AtHome s (s.answers e l p) :=
  atHome_ite _ (atHome_dropLine s p l) (atHome_ite _ (atHome_modTile s p _) (AtHome.refl s))

theorem atHome_endWait (s : State) (l n : Nat) : AtHome s (s.endWait l n) := by
  induction n generalizing s with
  | zero => exact AtHome.refl s
  | succ n ih =>
    unfold State.endWait
    dsimp only
    split
    · exact ((atHome_foldl _ (fun t p => atHome_answers t _ l p) _ s).trans (atHome_cultureAct _ _ _ _ _)).trans (ih _)
    · exact AtHome.refl s

theorem atHome_homeStep (s : State) (l ev : Nat) (r : Option Nat) (m : Nat) : AtHome s (s.homeStep l ev r m) :=
  ((atHome_endWait s l 4).trans (atHome_cultureAct _ _ _ _ _)).trans (atHome_endWait _ l 4)

theorem atHome_trimL2 (s : State) (t n : Nat) : AtHome s (s.trimL2 t n) := by
  induction n generalizing s with
  | zero => exact AtHome.refl s
  | succ n ih =>
    unfold State.trimL2
    split
    · exact AtHome.refl s
    · split
      · exact ((atHome_dropLine s _ _).trans (atHome_homeStep _ _ _ _ _)).trans (ih _)
      · exact AtHome.refl s
theorem atHome_trimmed (s : State) (t : Nat) : AtHome s (s.trimmed t) := atHome_trimL2 s t _
theorem atHome_trimOf (s : State) (p : Option Nat) : AtHome s (s.trimOf p) := by
  cases p with
  | none => exact AtHome.refl s
  | some t => exact atHome_ite _ (atHome_trimmed s t) (AtHome.refl s)

/-- A request served at a home changes the directory and the caches only. -/
theorem atHome_homeServe (s : State) (l ev : Nat) (r : Option Nat) (m : Nat) : AtHome s (s.homeServe l ev r m) :=
  ((atHome_homeStep s l ev r m).trans (atHome_trimOf _ _)).trans (atHome_trimOf _ _)

theorem atHome_serveRuns (s : State) (runs : List (Nat × Nat)) (ev : Nat) (r : Option Nat) :
    AtHome s (s.serveRuns runs ev r) := by
  unfold State.serveRuns
  refine atHome_foldl _ (fun t l => ?_) _ s
  split
  · exact atHome_homeServe t l ev r _
  · exact AtHome.refl t

@[simp] theorem serveRuns_mem (s : State) (runs : List (Nat × Nat)) (ev : Nat) (r : Option Nat) :
    (s.serveRuns runs ev r).mem = s.mem := (atHome_serveRuns s runs ev r).1

/-! Lines into the caches. -/

theorem atHome_settleL2 (s : State) (t l : Nat) : AtHome s (s.settleL2 t l) := AtHome.refl s

theorem atHome_trimL1 (s : State) (m : Nat) : AtHome s (s.trimL1 m) := by
  unfold State.trimL1
  dsimp only
  split
  · exact AtHome.refl s
  · split
    · split
      · exact ((atHome_modCore s _ _).trans (atHome_settleL2 _ _ _)).trans (atHome_trimmed _ _)
      · exact atHome_modCore s _ _
    · exact AtHome.refl s

theorem atHome_fillL1 (s : State) (n l : Nat) : AtHome s (s.fillL1 n l) := by
  unfold State.fillL1
  dsimp only
  split
  · exact AtHome.refl s
  · exact (atHome_modCore s _ _).trans (atHome_trimL1 _ _)

theorem atHome_fillL2 (s : State) (t vf l : Nat) (b : Bool) : AtHome s (s.fillL2 t vf l b) := by
  unfold State.fillL2
  split
  · exact AtHome.refl s
  · exact ((((atHome_homeServe s _ _ _ _).trans (atHome_takeLine _ _ _)).trans (atHome_markL2 _ _ _ _)).trans
      (atHome_chargeLine _ _ _)).trans (atHome_trimmed _ _)

theorem atHome_refresh (s : State) (t l m : Nat) : AtHome s (s.refresh t l m) :=
  atHome_ite _ (atHome_dropLine s t l) (AtHome.refl s)

/-- A read passes through the caches: memory, quads and the issuing context stay. -/
theorem atHome_readLine (s : State) (n vf c l : Nat) (b : Bool) : AtHome s (s.readLine n vf c l b) := by
  unfold State.readLine
  split
  · exact AtHome.refl s
  · have h := atHome_fillL2 s (tileOf n) vf l b
    dsimp only
    split
    · exact (h.trans (atHome_dropLine _ _ _)).trans (atHome_homeServe _ _ _ _ _)
    · split
      · exact h
      · exact h.trans (atHome_fillL1 _ _ _)

theorem atHome_readRuns (s : State) (n vf c : Nat) (runs : List (Nat × Nat × Bool)) : AtHome s (s.readRuns n vf c runs) := by
  unfold State.readRuns
  refine atHome_foldl _ (fun t r => ?_) _ s
  refine atHome_foldl _ (fun u l => ?_) _ t
  split
  · exact (atHome_refresh u _ _ _).trans (atHome_readLine _ _ _ _ _ _)
  · exact AtHome.refl u

@[simp] theorem readRuns_mem (s : State) (n vf c : Nat) (runs : List (Nat × Nat × Bool)) :
    (s.readRuns n vf c runs).mem = s.mem := (atHome_readRuns s n vf c runs).1

theorem atHome_acquire (s : State) (n scope : Nat) : AtHome s (s.acquire n scope) := by
  unfold State.acquire
  refine atHome_foldl _ (fun t l => ?_) _ s
  dsimp only
  split
  · exact atHome_homeServe _ _ _ _ _
  · exact AtHome.refl t

end Sys2Proof.Machine
end

