-- ==== Sys2Proof/Laws/PerInstr.lean ====
section
/-!
SUPPORT. A statement about every instruction as syntax, one lemma per constructor: the word of an instruction carries the
major opcode that R72 gives it.
-/

namespace Sys2Proof

/-- The major opcode of an instruction word (R72); an AMO and a RED carry their size in its lowest bit. -/
def Instr.major : Instr → BitVec 6
  | .imm _ => 0x00#6
  | .onnr _ => 0x01#6
  | .hint _ _ _ => 0x02#6
  | .mod _ _ _ => 0x03#6
  | .nop => 0x04#6
  | .add _ _ _ _ => 0x04#6
  | .sub _ _ _ _ => 0x04#6
  | .mul _ _ _ _ => 0x04#6
  | .mulh _ _ _ _ => 0x04#6
  | .mulhu _ _ _ _ => 0x04#6
  | .div _ _ _ _ => 0x04#6
  | .divu _ _ _ _ => 0x04#6
  | .rem _ _ _ _ => 0x04#6
  | .remu _ _ _ _ => 0x04#6
  | .and _ _ _ _ => 0x04#6
  | .or _ _ _ _ => 0x04#6
  | .xor _ _ _ _ => 0x04#6
  | .shl _ _ _ _ => 0x04#6
  | .shr _ _ _ _ => 0x04#6
  | .sar _ _ _ _ => 0x04#6
  | .rot _ _ _ _ => 0x04#6
  | .min _ _ _ _ => 0x05#6
  | .max _ _ _ _ => 0x05#6
  | .minu _ _ _ _ => 0x05#6
  | .maxu _ _ _ _ => 0x05#6
  | .clz _ _ _ => 0x05#6
  | .ctz _ _ _ => 0x05#6
  | .popc _ _ _ => 0x05#6
  | .mov _ _ _ => 0x05#6
  | .ext _ _ _ _ => 0x05#6
  | .extS _ _ _ _ => 0x05#6
  | .ins _ _ _ _ => 0x05#6
  | .lea _ _ _ _ _ => 0x05#6
  | .sel _ _ _ _ _ _ => 0x06#6
  | .addi _ _ _ _ => 0x07#6
  | .movi _ _ _ => 0x07#6
  | .andi _ _ _ _ => 0x08#6
  | .ori _ _ _ _ => 0x09#6
  | .xori _ _ _ _ => 0x0A#6
  | .shli _ _ _ _ => 0x0B#6
  | .shri _ _ _ _ => 0x0B#6
  | .sari _ _ _ _ => 0x0B#6
  | .cmp _ _ _ _ _ _ => 0x0C#6
  | .cmpi _ _ _ _ _ _ => 0x0D#6
  | .pand _ _ _ _ => 0x0E#6
  | .por _ _ _ _ => 0x0E#6
  | .pxor _ _ _ _ => 0x0E#6
  | .pnot _ _ _ => 0x0E#6
  | .br _ _ => 0x10#6
  | .jmp _ => 0x10#6
  | .call _ _ => 0x11#6
  | .loop _ _ _ => 0x12#6
  | .jmpr _ _ => 0x13#6
  | .callr _ _ => 0x13#6
  | .ret _ _ => 0x13#6
  | .jseg _ _ => 0x13#6
  | .yield _ => 0x13#6
  | .parkGe _ _ _ => 0x13#6
  | .parkNbS _ _ => 0x13#6
  | .parkNbV _ _ => 0x13#6
  | .parkWatch _ _ => 0x13#6
  | .exit _ => 0x13#6
  | .vadd _ _ _ _ => 0x14#6
  | .vsub _ _ _ _ => 0x14#6
  | .vmul _ _ _ _ => 0x14#6
  | .vmad _ _ _ _ => 0x14#6
  | .vand _ _ _ _ => 0x14#6
  | .vor _ _ _ _ => 0x14#6
  | .vxor _ _ _ _ => 0x14#6
  | .vshl _ _ _ _ => 0x14#6
  | .vshr _ _ _ _ => 0x14#6
  | .vsar _ _ _ _ => 0x14#6
  | .vmin _ _ _ _ _ => 0x14#6
  | .vmax _ _ _ _ _ => 0x14#6
  | .vabs _ _ _ => 0x14#6
  | .vsel _ _ _ _ => 0x14#6
  | .vshuf _ _ _ _ => 0x14#6
  | .vrot _ _ _ _ => 0x14#6
  | .vcmp _ _ _ _ _ => 0x14#6
  | .vbcast _ _ _ => 0x15#6
  | .vlane _ _ => 0x15#6
  | .vredAdd _ _ _ => 0x15#6
  | .vredAnd _ _ _ => 0x15#6
  | .vredOr _ _ _ => 0x15#6
  | .vredXor _ _ _ => 0x15#6
  | .vredMin _ _ _ _ => 0x15#6
  | .vredMax _ _ _ _ => 0x15#6
  | .vfredAdd _ _ _ => 0x15#6
  | .vfredMin _ _ _ => 0x15#6
  | .vfredMax _ _ _ => 0x15#6
  | .vfadd _ _ _ _ => 0x16#6
  | .vfsub _ _ _ _ => 0x16#6
  | .vfmul _ _ _ _ => 0x16#6
  | .vfma _ _ _ _ => 0x16#6
  | .vfms _ _ _ _ => 0x16#6
  | .vfnma _ _ _ _ => 0x16#6
  | .vfmin _ _ _ _ => 0x16#6
  | .vfmax _ _ _ _ => 0x16#6
  | .vfabs _ _ _ => 0x16#6
  | .vfneg _ _ _ => 0x16#6
  | .vfrcp _ _ _ => 0x16#6
  | .vfrsq _ _ _ => 0x16#6
  | .vfsqrt _ _ _ => 0x16#6
  | .vfexp2 _ _ _ => 0x16#6
  | .vflog2 _ _ _ => 0x16#6
  | .vfclass _ _ _ => 0x16#6
  | .vfcmp _ _ _ _ _ => 0x16#6
  | .vcvtF2x _ _ _ _ => 0x17#6
  | .vcvtX2f _ _ _ _ => 0x17#6
  | .vcvtF2i _ _ _ => 0x17#6
  | .vcvtF2u _ _ _ => 0x17#6
  | .vcvtI2f _ _ _ => 0x17#6
  | .vcvtU2f _ _ _ => 0x17#6
  | .vpack _ _ _ _ _ => 0x17#6
  | .vunpk _ _ _ _ _ => 0x17#6
  | .vfrnd _ _ _ => 0x17#6
  | .fadd _ _ _ _ => 0x18#6
  | .fsub _ _ _ _ => 0x18#6
  | .fmul _ _ _ _ => 0x18#6
  | .ffma _ _ _ _ => 0x18#6
  | .fmin _ _ _ _ => 0x18#6
  | .fmax _ _ _ _ => 0x18#6
  | .fcvtF2x _ _ _ _ => 0x18#6
  | .fcvtX2f _ _ _ _ => 0x18#6
  | .fcvtF2i _ _ _ => 0x18#6
  | .fcvtF2u _ _ _ => 0x18#6
  | .fcvtI2f _ _ _ => 0x18#6
  | .fcvtU2f _ _ _ => 0x18#6
  | .fcmp _ _ _ _ _ _ => 0x19#6
  | .mxmul _ _ _ _ => 0x20#6
  | .mxmuls _ _ _ _ => 0x20#6
  | .mxfetch _ _ _ => 0x20#6
  | .mxprog _ _ _ => 0x20#6
  | .mxdef _ => 0x20#6
  | .mxscl _ _ => 0x20#6
  | .mxrd _ _ _ => 0x20#6
  | .mxwr _ _ _ => 0x20#6
  | .mxzero _ _ => 0x20#6
  | .mxdrain _ _ => 0x20#6
  | .mxstat _ _ => 0x20#6
  | .mxclr _ => 0x20#6
  | .mxcap _ _ _ _ => 0x20#6
  | .mxcmd _ _ _ => 0x20#6
  | .ld _ _ _ _ _ => 0x28#6
  | .st _ _ _ _ _ => 0x29#6
  | .lda _ _ _ _ _ _ => 0x2A#6
  | .vld _ _ _ _ => 0x2B#6
  | .vst _ _ _ _ => 0x2B#6
  | .vlda _ _ _ _ _ => 0x2B#6
  | .vlds _ _ _ _ => 0x2C#6
  | .vsts _ _ _ _ => 0x2C#6
  | .vldx _ _ _ _ => 0x2C#6
  | .vstx _ _ _ _ => 0x2C#6
  | .ldl _ _ _ _ _ => 0x2D#6
  | .stl _ _ _ _ _ => 0x2D#6
  | .pst _ _ _ _ => 0x2D#6
  | .pref _ _ => 0x2D#6
  | .cfetch _ _ _ => 0x2D#6
  | .flush _ _ => 0x2D#6
  | .amo z _ _ _ _ _ => (0b11000#5 ++ z)
  | .red z _ _ _ _ => (0b11001#5 ++ z)
  | .tladd _ _ _ _ => 0x34#6
  | .waitge _ _ _ _ => 0x34#6
  | .waita _ _ => 0x34#6
  | .watch _ _ _ _ => 0x34#6
  | .wake _ _ => 0x34#6
  | .bara _ _ _ _ => 0x34#6
  | .barw _ _ _ => 0x34#6
  | .cpset _ _ _ => 0x35#6
  | .cpgo _ _ => 0x35#6
  | .cppb _ _ _ => 0x35#6
  | .cpq _ _ _ => 0x35#6
  | .nput _ _ _ _ _ _ => 0x38#6
  | .ntake _ _ _ _ => 0x38#6
  | .send _ _ _ => 0x39#6
  | .recv _ _ _ => 0x39#6
  | .recvPark _ _ => 0x39#6
  | .pipeput _ _ _ => 0x39#6
  | .pipeget _ _ _ => 0x39#6
  | .susp _ _ _ => 0x39#6
  | .taskpop _ => 0x39#6
  | .taskpush _ _ => 0x39#6
  | .launch _ _ _ => 0x39#6
  | .sysc _ _ => 0x39#6
  | .syscNb _ _ _ => 0x39#6
  | .jrnl _ _ _ => 0x39#6
  | .relst _ _ _ _ _ => 0x3C#6
  | .acqld _ _ _ _ _ => 0x3C#6
  | .fence _ _ => 0x3C#6
  | .trap _ _ => 0x3E#6
  | .tret _ => 0x3E#6
  | .movc _ _ _ => 0x3E#6
  | .movcw _ _ _ => 0x3E#6
  | .sprint _ _ _ => 0x3E#6
  | .unsprint _ => 0x3E#6
  | .dbgbrk _ => 0x3E#6
  | .wspsw _ _ _ => 0x3E#6
  | .tlbinv _ _ _ => 0x3E#6
  | .cultld _ _ _ => 0x3E#6
  | .rangeset _ _ _ => 0x3E#6
  | _ => 0

namespace Laws.Major

/-- Bits 31 to 26 of the word are the major opcode. -/
def Statement (i : Instr) : Prop := i.isEvent = false → wOp (encode i) = i.major

theorem imm (p : BitVec 26) : Statement (.imm p) := fun _ => wOp_packP _ _
theorem onnr (o : BitVec 26) : Statement (.onnr o) := fun _ => wOp_packP _ _
theorem hint (u : BitVec 3) (l : BitVec 2) (k : BitVec 1) : Statement (.hint u l k) := fun _ => wOp_packP _ _
theorem mod (m : BitVec 3) (s : BitVec 1) (c : BitVec 2) : Statement (.mod m s c) := fun _ => wOp_packP _ _
theorem nop : Statement .nop := fun _ => wOp_packA _ _ _ _ _ _
theorem add (g : BitVec 4) (d : BitVec 6) (a : BitVec 6) (b : BitVec 6) : Statement (.add g d a b) := fun _ => wOp_packA _ _ _ _ _ _
theorem sub (g : BitVec 4) (d : BitVec 6) (a : BitVec 6) (b : BitVec 6) : Statement (.sub g d a b) := fun _ => wOp_packA _ _ _ _ _ _
theorem mul (g : BitVec 4) (d : BitVec 6) (a : BitVec 6) (b : BitVec 6) : Statement (.mul g d a b) := fun _ => wOp_packA _ _ _ _ _ _
theorem mulh (g : BitVec 4) (d : BitVec 6) (a : BitVec 6) (b : BitVec 6) : Statement (.mulh g d a b) := fun _ => wOp_packA _ _ _ _ _ _
theorem mulhu (g : BitVec 4) (d : BitVec 6) (a : BitVec 6) (b : BitVec 6) : Statement (.mulhu g d a b) := fun _ => wOp_packA _ _ _ _ _ _
theorem div (g : BitVec 4) (d : BitVec 6) (a : BitVec 6) (b : BitVec 6) : Statement (.div g d a b) := fun _ => wOp_packA _ _ _ _ _ _
theorem divu (g : BitVec 4) (d : BitVec 6) (a : BitVec 6) (b : BitVec 6) : Statement (.divu g d a b) := fun _ => wOp_packA _ _ _ _ _ _
theorem rem (g : BitVec 4) (d : BitVec 6) (a : BitVec 6) (b : BitVec 6) : Statement (.rem g d a b) := fun _ => wOp_packA _ _ _ _ _ _
theorem remu (g : BitVec 4) (d : BitVec 6) (a : BitVec 6) (b : BitVec 6) : Statement (.remu g d a b) := fun _ => wOp_packA _ _ _ _ _ _
theorem and (g : BitVec 4) (d : BitVec 6) (a : BitVec 6) (b : BitVec 6) : Statement (.and g d a b) := fun _ => wOp_packA _ _ _ _ _ _
theorem or (g : BitVec 4) (d : BitVec 6) (a : BitVec 6) (b : BitVec 6) : Statement (.or g d a b) := fun _ => wOp_packA _ _ _ _ _ _
theorem xor (g : BitVec 4) (d : BitVec 6) (a : BitVec 6) (b : BitVec 6) : Statement (.xor g d a b) := fun _ => wOp_packA _ _ _ _ _ _
theorem shl (g : BitVec 4) (d : BitVec 6) (a : BitVec 6) (b : BitVec 6) : Statement (.shl g d a b) := fun _ => wOp_packA _ _ _ _ _ _
theorem shr (g : BitVec 4) (d : BitVec 6) (a : BitVec 6) (b : BitVec 6) : Statement (.shr g d a b) := fun _ => wOp_packA _ _ _ _ _ _
theorem sar (g : BitVec 4) (d : BitVec 6) (a : BitVec 6) (b : BitVec 6) : Statement (.sar g d a b) := fun _ => wOp_packA _ _ _ _ _ _
theorem rot (g : BitVec 4) (d : BitVec 6) (a : BitVec 6) (b : BitVec 6) : Statement (.rot g d a b) := fun _ => wOp_packA _ _ _ _ _ _
theorem min (g : BitVec 4) (d : BitVec 6) (a : BitVec 6) (b : BitVec 6) : Statement (.min g d a b) := fun _ => wOp_packA _ _ _ _ _ _
theorem max (g : BitVec 4) (d : BitVec 6) (a : BitVec 6) (b : BitVec 6) : Statement (.max g d a b) := fun _ => wOp_packA _ _ _ _ _ _
theorem minu (g : BitVec 4) (d : BitVec 6) (a : BitVec 6) (b : BitVec 6) : Statement (.minu g d a b) := fun _ => wOp_packA _ _ _ _ _ _
theorem maxu (g : BitVec 4) (d : BitVec 6) (a : BitVec 6) (b : BitVec 6) : Statement (.maxu g d a b) := fun _ => wOp_packA _ _ _ _ _ _
theorem clz (g : BitVec 4) (d : BitVec 6) (a : BitVec 6) : Statement (.clz g d a) := fun _ => wOp_packA _ _ _ _ _ _
theorem ctz (g : BitVec 4) (d : BitVec 6) (a : BitVec 6) : Statement (.ctz g d a) := fun _ => wOp_packA _ _ _ _ _ _
theorem popc (g : BitVec 4) (d : BitVec 6) (a : BitVec 6) : Statement (.popc g d a) := fun _ => wOp_packA _ _ _ _ _ _
theorem mov (g : BitVec 4) (d : BitVec 6) (a : BitVec 6) : Statement (.mov g d a) := fun _ => wOp_packA _ _ _ _ _ _
theorem ext (g : BitVec 4) (d : BitVec 6) (a : BitVec 6) (b : BitVec 6) : Statement (.ext g d a b) := fun _ => wOp_packA _ _ _ _ _ _
theorem extS (g : BitVec 4) (d : BitVec 6) (a : BitVec 6) (b : BitVec 6) : Statement (.extS g d a b) := fun _ => wOp_packA _ _ _ _ _ _
theorem ins (g : BitVec 4) (d : BitVec 6) (a : BitVec 6) (b : BitVec 6) : Statement (.ins g d a b) := fun _ => wOp_packA _ _ _ _ _ _
theorem lea (g : BitVec 4) (d : BitVec 6) (a : BitVec 6) (b : BitVec 6) (s : BitVec 2) : Statement (.lea g d a b s) := fun _ => wOp_packA _ _ _ _ _ _
theorem sel (g : BitVec 4) (d : BitVec 6) (a : BitVec 6) (b : BitVec 6) (n : BitVec 1) (q : BitVec 3) : Statement (.sel g d a b n q) := fun _ => wOp_packA _ _ _ _ _ _
theorem addi (g : BitVec 4) (d : BitVec 6) (a : BitVec 6) (i : BitVec 10) : Statement (.addi g d a i) := fun _ => wOp_packI _ _ _ _ _
theorem movi (g : BitVec 4) (d : BitVec 6) (i : BitVec 10) : Statement (.movi g d i) := fun _ => wOp_packI _ _ _ _ _
theorem andi (g : BitVec 4) (d : BitVec 6) (a : BitVec 6) (i : BitVec 10) : Statement (.andi g d a i) := fun _ => wOp_packI _ _ _ _ _
theorem ori (g : BitVec 4) (d : BitVec 6) (a : BitVec 6) (i : BitVec 10) : Statement (.ori g d a i) := fun _ => wOp_packI _ _ _ _ _
theorem xori (g : BitVec 4) (d : BitVec 6) (a : BitVec 6) (i : BitVec 10) : Statement (.xori g d a i) := fun _ => wOp_packI _ _ _ _ _
theorem shli (g : BitVec 4) (d : BitVec 6) (a : BitVec 6) (n : BitVec 6) : Statement (.shli g d a n) := fun _ => wOp_packI _ _ _ _ _
theorem shri (g : BitVec 4) (d : BitVec 6) (a : BitVec 6) (n : BitVec 6) : Statement (.shri g d a n) := fun _ => wOp_packI _ _ _ _ _
theorem sari (g : BitVec 4) (d : BitVec 6) (a : BitVec 6) (n : BitVec 6) : Statement (.sari g d a n) := fun _ => wOp_packI _ _ _ _ _
theorem cmp (g : BitVec 4) (p : BitVec 3) (e : BitVec 3) (a : BitVec 6) (b : BitVec 6) (c : BitVec 4) : Statement (.cmp g p e a b c) := fun _ => wOp_packC _ _ _ _ _ _ _
theorem cmpi (g : BitVec 4) (p : BitVec 3) (e : BitVec 3) (a : BitVec 6) (i : BitVec 6) (c : BitVec 4) : Statement (.cmpi g p e a i c) := fun _ => wOp_packC _ _ _ _ _ _ _
theorem pand (g : BitVec 4) (d : BitVec 3) (a : BitVec 3) (b : BitVec 3) : Statement (.pand g d a b) := fun _ => wOp_packQ _ _ _ _ _ _
theorem por (g : BitVec 4) (d : BitVec 3) (a : BitVec 3) (b : BitVec 3) : Statement (.por g d a b) := fun _ => wOp_packQ _ _ _ _ _ _
theorem pxor (g : BitVec 4) (d : BitVec 3) (a : BitVec 3) (b : BitVec 3) : Statement (.pxor g d a b) := fun _ => wOp_packQ _ _ _ _ _ _
theorem pnot (g : BitVec 4) (d : BitVec 3) (a : BitVec 3) : Statement (.pnot g d a) := fun _ => wOp_packQ _ _ _ _ _ _
theorem br (g : BitVec 4) (o : BitVec 22) : Statement (.br g o) := fun _ => wOp_packB _ _ _
theorem jmp (o : BitVec 22) : Statement (.jmp o) := fun _ => wOp_packB _ _ _
theorem call (g : BitVec 4) (o : BitVec 22) : Statement (.call g o) := fun _ => wOp_packB _ _ _
theorem loop (g : BitVec 4) (d : BitVec 6) (i : BitVec 10) : Statement (.loop g d i) := fun _ => wOp_packI _ _ _ _ _
theorem jmpr (g : BitVec 4) (a : BitVec 6) : Statement (.jmpr g a) := fun _ => wOp_packA _ _ _ _ _ _
theorem callr (g : BitVec 4) (a : BitVec 6) : Statement (.callr g a) := fun _ => wOp_packA _ _ _ _ _ _
theorem ret (g : BitVec 4) (a : BitVec 6) : Statement (.ret g a) := fun _ => wOp_packA _ _ _ _ _ _
theorem jseg (g : BitVec 4) (a : BitVec 6) : Statement (.jseg g a) := fun _ => wOp_packA _ _ _ _ _ _
theorem yield (g : BitVec 4) : Statement (.yield g) := fun _ => wOp_packA _ _ _ _ _ _
theorem parkGe (g : BitVec 4) (a : BitVec 6) (b : BitVec 6) : Statement (.parkGe g a b) := fun _ => wOp_packA _ _ _ _ _ _
theorem parkNbS (g : BitVec 4) (n : BitVec 6) : Statement (.parkNbS g n) := fun _ => wOp_packA _ _ _ _ _ _
theorem parkNbV (g : BitVec 4) (n : BitVec 5) : Statement (.parkNbV g n) := fun _ => wOp_packA _ _ _ _ _ _
theorem parkWatch (g : BitVec 4) (a : BitVec 6) : Statement (.parkWatch g a) := fun _ => wOp_packA _ _ _ _ _ _
theorem exit (g : BitVec 4) : Statement (.exit g) := fun _ => wOp_packA _ _ _ _ _ _
theorem vadd (g : BitVec 4) (d : BitVec 5) (a : BitVec 5) (b : BitVec 5) : Statement (.vadd g d a b) := fun _ => wOp_packV _ _ _ _ _ _ _
theorem vsub (g : BitVec 4) (d : BitVec 5) (a : BitVec 5) (b : BitVec 5) : Statement (.vsub g d a b) := fun _ => wOp_packV _ _ _ _ _ _ _
theorem vmul (g : BitVec 4) (d : BitVec 5) (a : BitVec 5) (b : BitVec 5) : Statement (.vmul g d a b) := fun _ => wOp_packV _ _ _ _ _ _ _
theorem vmad (g : BitVec 4) (d : BitVec 5) (a : BitVec 5) (b : BitVec 5) : Statement (.vmad g d a b) := fun _ => wOp_packV _ _ _ _ _ _ _
theorem vand (g : BitVec 4) (d : BitVec 5) (a : BitVec 5) (b : BitVec 5) : Statement (.vand g d a b) := fun _ => wOp_packV _ _ _ _ _ _ _
theorem vor (g : BitVec 4) (d : BitVec 5) (a : BitVec 5) (b : BitVec 5) : Statement (.vor g d a b) := fun _ => wOp_packV _ _ _ _ _ _ _
theorem vxor (g : BitVec 4) (d : BitVec 5) (a : BitVec 5) (b : BitVec 5) : Statement (.vxor g d a b) := fun _ => wOp_packV _ _ _ _ _ _ _
theorem vshl (g : BitVec 4) (d : BitVec 5) (a : BitVec 5) (b : BitVec 5) : Statement (.vshl g d a b) := fun _ => wOp_packV _ _ _ _ _ _ _
theorem vshr (g : BitVec 4) (d : BitVec 5) (a : BitVec 5) (b : BitVec 5) : Statement (.vshr g d a b) := fun _ => wOp_packV _ _ _ _ _ _ _
theorem vsar (g : BitVec 4) (d : BitVec 5) (a : BitVec 5) (b : BitVec 5) : Statement (.vsar g d a b) := fun _ => wOp_packV _ _ _ _ _ _ _
theorem vmin (g : BitVec 4) (d : BitVec 5) (a : BitVec 5) (b : BitVec 5) (t : BitVec 1) : Statement (.vmin g d a b t) := fun _ => wOp_packV _ _ _ _ _ _ _
theorem vmax (g : BitVec 4) (d : BitVec 5) (a : BitVec 5) (b : BitVec 5) (t : BitVec 1) : Statement (.vmax g d a b t) := fun _ => wOp_packV _ _ _ _ _ _ _
theorem vabs (g : BitVec 4) (d : BitVec 5) (a : BitVec 5) : Statement (.vabs g d a) := fun _ => wOp_packV _ _ _ _ _ _ _
theorem vsel (g : BitVec 4) (d : BitVec 5) (a : BitVec 5) (b : BitVec 5) : Statement (.vsel g d a b) := fun _ => wOp_packV _ _ _ _ _ _ _
theorem vshuf (g : BitVec 4) (d : BitVec 5) (a : BitVec 5) (b : BitVec 5) : Statement (.vshuf g d a b) := fun _ => wOp_packV _ _ _ _ _ _ _
theorem vrot (g : BitVec 4) (d : BitVec 5) (a : BitVec 5) (b : BitVec 5) : Statement (.vrot g d a b) := fun _ => wOp_packV _ _ _ _ _ _ _
theorem vcmp (g : BitVec 4) (p : BitVec 3) (a : BitVec 5) (b : BitVec 5) (c : BitVec 4) : Statement (.vcmp g p a b c) := fun _ => wOp_packV _ _ _ _ _ _ _
theorem vbcast (g : BitVec 4) (s : BitVec 6) (v : BitVec 5) : Statement (.vbcast g s v) := fun _ => wOp_packVX _ _ _ _ _ _
theorem vlane (g : BitVec 4) (v : BitVec 5) : Statement (.vlane g v) := fun _ => wOp_packVX _ _ _ _ _ _
theorem vredAdd (g : BitVec 4) (s : BitVec 6) (v : BitVec 5) : Statement (.vredAdd g s v) := fun _ => wOp_packVX _ _ _ _ _ _
theorem vredAnd (g : BitVec 4) (s : BitVec 6) (v : BitVec 5) : Statement (.vredAnd g s v) := fun _ => wOp_packVX _ _ _ _ _ _
theorem vredOr (g : BitVec 4) (s : BitVec 6) (v : BitVec 5) : Statement (.vredOr g s v) := fun _ => wOp_packVX _ _ _ _ _ _
theorem vredXor (g : BitVec 4) (s : BitVec 6) (v : BitVec 5) : Statement (.vredXor g s v) := fun _ => wOp_packVX _ _ _ _ _ _
theorem vredMin (g : BitVec 4) (s : BitVec 6) (v : BitVec 5) (t : BitVec 1) : Statement (.vredMin g s v t) := fun _ => wOp_packVX _ _ _ _ _ _
theorem vredMax (g : BitVec 4) (s : BitVec 6) (v : BitVec 5) (t : BitVec 1) : Statement (.vredMax g s v t) := fun _ => wOp_packVX _ _ _ _ _ _
theorem vfredAdd (g : BitVec 4) (s : BitVec 6) (v : BitVec 5) : Statement (.vfredAdd g s v) := fun _ => wOp_packVX _ _ _ _ _ _
theorem vfredMin (g : BitVec 4) (s : BitVec 6) (v : BitVec 5) : Statement (.vfredMin g s v) := fun _ => wOp_packVX _ _ _ _ _ _
theorem vfredMax (g : BitVec 4) (s : BitVec 6) (v : BitVec 5) : Statement (.vfredMax g s v) := fun _ => wOp_packVX _ _ _ _ _ _
theorem vfadd (g : BitVec 4) (d : BitVec 5) (a : BitVec 5) (b : BitVec 5) : Statement (.vfadd g d a b) := fun _ => wOp_packV _ _ _ _ _ _ _
theorem vfsub (g : BitVec 4) (d : BitVec 5) (a : BitVec 5) (b : BitVec 5) : Statement (.vfsub g d a b) := fun _ => wOp_packV _ _ _ _ _ _ _
theorem vfmul (g : BitVec 4) (d : BitVec 5) (a : BitVec 5) (b : BitVec 5) : Statement (.vfmul g d a b) := fun _ => wOp_packV _ _ _ _ _ _ _
theorem vfma (g : BitVec 4) (d : BitVec 5) (a : BitVec 5) (b : BitVec 5) : Statement (.vfma g d a b) := fun _ => wOp_packV _ _ _ _ _ _ _
theorem vfms (g : BitVec 4) (d : BitVec 5) (a : BitVec 5) (b : BitVec 5) : Statement (.vfms g d a b) := fun _ => wOp_packV _ _ _ _ _ _ _
theorem vfnma (g : BitVec 4) (d : BitVec 5) (a : BitVec 5) (b : BitVec 5) : Statement (.vfnma g d a b) := fun _ => wOp_packV _ _ _ _ _ _ _
theorem vfmin (g : BitVec 4) (d : BitVec 5) (a : BitVec 5) (b : BitVec 5) : Statement (.vfmin g d a b) := fun _ => wOp_packV _ _ _ _ _ _ _
theorem vfmax (g : BitVec 4) (d : BitVec 5) (a : BitVec 5) (b : BitVec 5) : Statement (.vfmax g d a b) := fun _ => wOp_packV _ _ _ _ _ _ _
theorem vfabs (g : BitVec 4) (d : BitVec 5) (a : BitVec 5) : Statement (.vfabs g d a) := fun _ => wOp_packV _ _ _ _ _ _ _
theorem vfneg (g : BitVec 4) (d : BitVec 5) (a : BitVec 5) : Statement (.vfneg g d a) := fun _ => wOp_packV _ _ _ _ _ _ _
theorem vfrcp (g : BitVec 4) (d : BitVec 5) (a : BitVec 5) : Statement (.vfrcp g d a) := fun _ => wOp_packV _ _ _ _ _ _ _
theorem vfrsq (g : BitVec 4) (d : BitVec 5) (a : BitVec 5) : Statement (.vfrsq g d a) := fun _ => wOp_packV _ _ _ _ _ _ _
theorem vfsqrt (g : BitVec 4) (d : BitVec 5) (a : BitVec 5) : Statement (.vfsqrt g d a) := fun _ => wOp_packV _ _ _ _ _ _ _
theorem vfexp2 (g : BitVec 4) (d : BitVec 5) (a : BitVec 5) : Statement (.vfexp2 g d a) := fun _ => wOp_packV _ _ _ _ _ _ _
theorem vflog2 (g : BitVec 4) (d : BitVec 5) (a : BitVec 5) : Statement (.vflog2 g d a) := fun _ => wOp_packV _ _ _ _ _ _ _
theorem vfclass (g : BitVec 4) (d : BitVec 5) (a : BitVec 5) : Statement (.vfclass g d a) := fun _ => wOp_packV _ _ _ _ _ _ _
theorem vfcmp (g : BitVec 4) (p : BitVec 3) (a : BitVec 5) (b : BitVec 5) (c : BitVec 4) : Statement (.vfcmp g p a b c) := fun _ => wOp_packV _ _ _ _ _ _ _
theorem vcvtF2x (g : BitVec 4) (d : BitVec 5) (a : BitVec 5) (f : BitVec 6) : Statement (.vcvtF2x g d a f) := fun _ => wOp_packVC _ _ _ _ _ _ _
theorem vcvtX2f (g : BitVec 4) (d : BitVec 5) (a : BitVec 5) (f : BitVec 6) : Statement (.vcvtX2f g d a f) := fun _ => wOp_packVC _ _ _ _ _ _ _
theorem vcvtF2i (g : BitVec 4) (d : BitVec 5) (a : BitVec 5) : Statement (.vcvtF2i g d a) := fun _ => wOp_packVC _ _ _ _ _ _ _
theorem vcvtF2u (g : BitVec 4) (d : BitVec 5) (a : BitVec 5) : Statement (.vcvtF2u g d a) := fun _ => wOp_packVC _ _ _ _ _ _ _
theorem vcvtI2f (g : BitVec 4) (d : BitVec 5) (a : BitVec 5) : Statement (.vcvtI2f g d a) := fun _ => wOp_packVC _ _ _ _ _ _ _
theorem vcvtU2f (g : BitVec 4) (d : BitVec 5) (a : BitVec 5) : Statement (.vcvtU2f g d a) := fun _ => wOp_packVC _ _ _ _ _ _ _
theorem vpack (g : BitVec 4) (d : BitVec 5) (a : BitVec 5) (f : BitVec 6) (p : BitVec 2) : Statement (.vpack g d a f p) := fun _ => wOp_packVC _ _ _ _ _ _ _
theorem vunpk (g : BitVec 4) (d : BitVec 5) (a : BitVec 5) (f : BitVec 6) (p : BitVec 2) : Statement (.vunpk g d a f p) := fun _ => wOp_packVC _ _ _ _ _ _ _
theorem vfrnd (g : BitVec 4) (d : BitVec 5) (a : BitVec 5) : Statement (.vfrnd g d a) := fun _ => wOp_packVC _ _ _ _ _ _ _
theorem fadd (g : BitVec 4) (d : BitVec 6) (a : BitVec 6) (b : BitVec 6) : Statement (.fadd g d a b) := fun _ => wOp_packA _ _ _ _ _ _
theorem fsub (g : BitVec 4) (d : BitVec 6) (a : BitVec 6) (b : BitVec 6) : Statement (.fsub g d a b) := fun _ => wOp_packA _ _ _ _ _ _
theorem fmul (g : BitVec 4) (d : BitVec 6) (a : BitVec 6) (b : BitVec 6) : Statement (.fmul g d a b) := fun _ => wOp_packA _ _ _ _ _ _
theorem ffma (g : BitVec 4) (d : BitVec 6) (a : BitVec 6) (b : BitVec 6) : Statement (.ffma g d a b) := fun _ => wOp_packA _ _ _ _ _ _
theorem fmin (g : BitVec 4) (d : BitVec 6) (a : BitVec 6) (b : BitVec 6) : Statement (.fmin g d a b) := fun _ => wOp_packA _ _ _ _ _ _
theorem fmax (g : BitVec 4) (d : BitVec 6) (a : BitVec 6) (b : BitVec 6) : Statement (.fmax g d a b) := fun _ => wOp_packA _ _ _ _ _ _
theorem fcvtF2x (g : BitVec 4) (d : BitVec 6) (a : BitVec 6) (f : BitVec 6) : Statement (.fcvtF2x g d a f) := fun _ => wOp_packA _ _ _ _ _ _
theorem fcvtX2f (g : BitVec 4) (d : BitVec 6) (a : BitVec 6) (f : BitVec 6) : Statement (.fcvtX2f g d a f) := fun _ => wOp_packA _ _ _ _ _ _
theorem fcvtF2i (g : BitVec 4) (d : BitVec 6) (a : BitVec 6) : Statement (.fcvtF2i g d a) := fun _ => wOp_packA _ _ _ _ _ _
theorem fcvtF2u (g : BitVec 4) (d : BitVec 6) (a : BitVec 6) : Statement (.fcvtF2u g d a) := fun _ => wOp_packA _ _ _ _ _ _
theorem fcvtI2f (g : BitVec 4) (d : BitVec 6) (a : BitVec 6) : Statement (.fcvtI2f g d a) := fun _ => wOp_packA _ _ _ _ _ _
theorem fcvtU2f (g : BitVec 4) (d : BitVec 6) (a : BitVec 6) : Statement (.fcvtU2f g d a) := fun _ => wOp_packA _ _ _ _ _ _
theorem fcmp (g : BitVec 4) (p : BitVec 3) (e : BitVec 3) (a : BitVec 6) (b : BitVec 6) (c : BitVec 4) : Statement (.fcmp g p e a b c) := fun _ => wOp_packC _ _ _ _ _ _ _
theorem mxmul (g : BitVec 4) (d : BitVec 6) (a : BitVec 6) (b : BitVec 6) : Statement (.mxmul g d a b) := fun _ => wOp_packA _ _ _ _ _ _
theorem mxmuls (g : BitVec 4) (d : BitVec 6) (a : BitVec 6) (b : BitVec 6) : Statement (.mxmuls g d a b) := fun _ => wOp_packA _ _ _ _ _ _
theorem mxfetch (g : BitVec 4) (a : BitVec 6) (b : BitVec 6) : Statement (.mxfetch g a b) := fun _ => wOp_packA _ _ _ _ _ _
theorem mxprog (g : BitVec 4) (a : BitVec 6) (b : BitVec 6) : Statement (.mxprog g a b) := fun _ => wOp_packA _ _ _ _ _ _
theorem mxdef (g : BitVec 4) : Statement (.mxdef g) := fun _ => wOp_packA _ _ _ _ _ _
theorem mxscl (g : BitVec 4) (a : BitVec 6) : Statement (.mxscl g a) := fun _ => wOp_packA _ _ _ _ _ _
theorem mxrd (g : BitVec 4) (d : BitVec 6) (a : BitVec 6) : Statement (.mxrd g d a) := fun _ => wOp_packA _ _ _ _ _ _
theorem mxwr (g : BitVec 4) (d : BitVec 6) (a : BitVec 6) : Statement (.mxwr g d a) := fun _ => wOp_packA _ _ _ _ _ _
theorem mxzero (g : BitVec 4) (d : BitVec 6) : Statement (.mxzero g d) := fun _ => wOp_packA _ _ _ _ _ _
theorem mxdrain (g : BitVec 4) (a : BitVec 6) : Statement (.mxdrain g a) := fun _ => wOp_packA _ _ _ _ _ _
theorem mxstat (g : BitVec 4) (d : BitVec 6) : Statement (.mxstat g d) := fun _ => wOp_packA _ _ _ _ _ _
theorem mxclr (g : BitVec 4) : Statement (.mxclr g) := fun _ => wOp_packA _ _ _ _ _ _
theorem mxcap (g : BitVec 4) (d : BitVec 6) (a : BitVec 6) (b : BitVec 6) : Statement (.mxcap g d a b) := fun _ => wOp_packA _ _ _ _ _ _
theorem mxcmd (g : BitVec 4) (d : BitVec 6) (a : BitVec 6) : Statement (.mxcmd g d a) := fun _ => wOp_packA _ _ _ _ _ _
theorem ld (g : BitVec 4) (d : BitVec 6) (a : BitVec 6) (k : BitVec 3) (o : BitVec 7) : Statement (.ld g d a k o) := fun _ => wOp_packM _ _ _ _ _ _
theorem st (g : BitVec 4) (d : BitVec 6) (a : BitVec 6) (k : BitVec 2) (o : BitVec 7) : Statement (.st g d a k o) := fun _ => wOp_packM _ _ _ _ _ _
theorem lda (g : BitVec 4) (d : BitVec 6) (a : BitVec 6) (n : BitVec 2) (z : BitVec 1) (o : BitVec 7) : Statement (.lda g d a n z o) := fun _ => wOp_packM _ _ _ _ _ _
theorem vld (g : BitVec 4) (d : BitVec 5) (a : BitVec 6) (o : BitVec 7) : Statement (.vld g d a o) := fun _ => wOp_packM _ _ _ _ _ _
theorem vst (g : BitVec 4) (d : BitVec 5) (a : BitVec 6) (o : BitVec 7) : Statement (.vst g d a o) := fun _ => wOp_packM _ _ _ _ _ _
theorem vlda (g : BitVec 4) (d : BitVec 5) (a : BitVec 6) (k : BitVec 3) (o : BitVec 7) : Statement (.vlda g d a k o) := fun _ => wOp_packM _ _ _ _ _ _
theorem vlds (g : BitVec 4) (d : BitVec 5) (a : BitVec 6) (b : BitVec 6) : Statement (.vlds g d a b) := fun _ => wOp_packVM _ _ _ _ _ _
theorem vsts (g : BitVec 4) (d : BitVec 5) (a : BitVec 6) (b : BitVec 6) : Statement (.vsts g d a b) := fun _ => wOp_packVM _ _ _ _ _ _
theorem vldx (g : BitVec 4) (d : BitVec 5) (a : BitVec 6) (v : BitVec 5) : Statement (.vldx g d a v) := fun _ => wOp_packVM _ _ _ _ _ _
theorem vstx (g : BitVec 4) (d : BitVec 5) (a : BitVec 6) (v : BitVec 5) : Statement (.vstx g d a v) := fun _ => wOp_packVM _ _ _ _ _ _
theorem ldl (g : BitVec 4) (d : BitVec 6) (a : BitVec 6) (b : BitVec 6) (z : BitVec 1) : Statement (.ldl g d a b z) := fun _ => wOp_packA _ _ _ _ _ _
theorem stl (g : BitVec 4) (d : BitVec 6) (a : BitVec 6) (b : BitVec 6) (z : BitVec 1) : Statement (.stl g d a b z) := fun _ => wOp_packA _ _ _ _ _ _
theorem pst (g : BitVec 4) (d : BitVec 6) (a : BitVec 6) (z : BitVec 1) : Statement (.pst g d a z) := fun _ => wOp_packA _ _ _ _ _ _
theorem pref (g : BitVec 4) (a : BitVec 6) : Statement (.pref g a) := fun _ => wOp_packA _ _ _ _ _ _
theorem cfetch (g : BitVec 4) (a : BitVec 6) (s : BitVec 4) : Statement (.cfetch g a s) := fun _ => wOp_packA _ _ _ _ _ _
theorem flush (g : BitVec 4) (a : BitVec 6) : Statement (.flush g a) := fun _ => wOp_packA _ _ _ _ _ _
theorem amo (z : BitVec 1) (g : BitVec 4) (d : BitVec 6) (a : BitVec 6) (b : BitVec 6) (f : BitVec 4) : Statement (.amo z g d a b f) := fun _ => wOp_packA _ _ _ _ _ _
theorem red (z : BitVec 1) (g : BitVec 4) (a : BitVec 6) (b : BitVec 6) (f : BitVec 3) : Statement (.red z g a b f) := fun _ => wOp_packA _ _ _ _ _ _
theorem tladd (g : BitVec 4) (s : BitVec 3) (a : BitVec 6) (b : BitVec 6) : Statement (.tladd g s a b) := fun _ => wOp_packA _ _ _ _ _ _
theorem waitge (g : BitVec 4) (s : BitVec 3) (a : BitVec 6) (b : BitVec 6) : Statement (.waitge g s a b) := fun _ => wOp_packA _ _ _ _ _ _
theorem waita (g : BitVec 4) (n : BitVec 2) : Statement (.waita g n) := fun _ => wOp_packA _ _ _ _ _ _
theorem watch (g : BitVec 4) (m : BitVec 2) (a : BitVec 6) (b : BitVec 6) : Statement (.watch g m a b) := fun _ => wOp_packA _ _ _ _ _ _
theorem wake (g : BitVec 4) (a : BitVec 6) : Statement (.wake g a) := fun _ => wOp_packA _ _ _ _ _ _
theorem bara (g : BitVec 4) (d : BitVec 6) (a : BitVec 6) (b : BitVec 6) : Statement (.bara g d a b) := fun _ => wOp_packA _ _ _ _ _ _
theorem barw (g : BitVec 4) (a : BitVec 6) (b : BitVec 6) : Statement (.barw g a b) := fun _ => wOp_packA _ _ _ _ _ _
theorem cpset (g : BitVec 4) (a : BitVec 6) (r : BitVec 3) : Statement (.cpset g a r) := fun _ => wOp_packA _ _ _ _ _ _
theorem cpgo (g : BitVec 4) (d : BitVec 6) : Statement (.cpgo g d) := fun _ => wOp_packA _ _ _ _ _ _
theorem cppb (g : BitVec 4) (d : BitVec 6) (a : BitVec 6) : Statement (.cppb g d a) := fun _ => wOp_packA _ _ _ _ _ _
theorem cpq (g : BitVec 4) (d : BitVec 6) (a : BitVec 6) : Statement (.cpq g d a) := fun _ => wOp_packA _ _ _ _ _ _
theorem nput (g : BitVec 4) (t : BitVec 6) (a : BitVec 6) (d : BitVec 2) (c : BitVec 4) (v : BitVec 1) : Statement (.nput g t a d c v) := fun _ => wOp_packN _ _ _ _ _ _ _ _
theorem ntake (g : BitVec 4) (t : BitVec 6) (a : BitVec 6) (v : BitVec 1) : Statement (.ntake g t a v) := fun _ => wOp_packN _ _ _ _ _ _ _ _
theorem send (g : BitVec 4) (a : BitVec 6) (b : BitVec 6) : Statement (.send g a b) := fun _ => wOp_packA _ _ _ _ _ _
theorem recv (g : BitVec 4) (d : BitVec 6) (c : BitVec 2) : Statement (.recv g d c) := fun _ => wOp_packA _ _ _ _ _ _
theorem recvPark (g : BitVec 4) (c : BitVec 2) : Statement (.recvPark g c) := fun _ => wOp_packA _ _ _ _ _ _
theorem pipeput (g : BitVec 4) (a : BitVec 6) (b : BitVec 6) : Statement (.pipeput g a b) := fun _ => wOp_packA _ _ _ _ _ _
theorem pipeget (g : BitVec 4) (d : BitVec 6) (a : BitVec 6) : Statement (.pipeget g d a) := fun _ => wOp_packA _ _ _ _ _ _
theorem susp (g : BitVec 4) (a : BitVec 6) (b : BitVec 6) : Statement (.susp g a b) := fun _ => wOp_packA _ _ _ _ _ _
theorem taskpop (g : BitVec 4) : Statement (.taskpop g) := fun _ => wOp_packA _ _ _ _ _ _
theorem taskpush (g : BitVec 4) (b : BitVec 6) : Statement (.taskpush g b) := fun _ => wOp_packA _ _ _ _ _ _
theorem launch (g : BitVec 4) (a : BitVec 6) (b : BitVec 6) : Statement (.launch g a b) := fun _ => wOp_packA _ _ _ _ _ _
theorem sysc (g : BitVec 4) (d : BitVec 6) : Statement (.sysc g d) := fun _ => wOp_packA _ _ _ _ _ _
theorem syscNb (g : BitVec 4) (a : BitVec 6) (b : BitVec 6) : Statement (.syscNb g a b) := fun _ => wOp_packA _ _ _ _ _ _
theorem jrnl (g : BitVec 4) (d : BitVec 6) (a : BitVec 6) : Statement (.jrnl g d a) := fun _ => wOp_packA _ _ _ _ _ _
theorem relst (g : BitVec 4) (d : BitVec 6) (a : BitVec 6) (s : BitVec 3) (z : BitVec 1) : Statement (.relst g d a s z) := fun _ => wOp_packA _ _ _ _ _ _
theorem acqld (g : BitVec 4) (d : BitVec 6) (a : BitVec 6) (s : BitVec 3) (z : BitVec 1) : Statement (.acqld g d a s z) := fun _ => wOp_packA _ _ _ _ _ _
theorem fence (g : BitVec 4) (s : BitVec 3) : Statement (.fence g s) := fun _ => wOp_packA _ _ _ _ _ _
theorem trap (g : BitVec 4) (c : BitVec 6) : Statement (.trap g c) := fun _ => wOp_packA _ _ _ _ _ _
theorem tret (g : BitVec 4) : Statement (.tret g) := fun _ => wOp_packA _ _ _ _ _ _
theorem movc (g : BitVec 4) (d : BitVec 6) (c : BitVec 6) : Statement (.movc g d c) := fun _ => wOp_packA _ _ _ _ _ _
theorem movcw (g : BitVec 4) (c : BitVec 6) (b : BitVec 6) : Statement (.movcw g c b) := fun _ => wOp_packA _ _ _ _ _ _
theorem sprint (g : BitVec 4) (a : BitVec 6) (b : BitVec 6) : Statement (.sprint g a b) := fun _ => wOp_packA _ _ _ _ _ _
theorem unsprint (g : BitVec 4) : Statement (.unsprint g) := fun _ => wOp_packA _ _ _ _ _ _
theorem dbgbrk (g : BitVec 4) : Statement (.dbgbrk g) := fun _ => wOp_packA _ _ _ _ _ _
theorem wspsw (g : BitVec 4) (a : BitVec 6) (b : BitVec 6) : Statement (.wspsw g a b) := fun _ => wOp_packA _ _ _ _ _ _
theorem tlbinv (g : BitVec 4) (a : BitVec 6) (b : BitVec 6) : Statement (.tlbinv g a b) := fun _ => wOp_packA _ _ _ _ _ _
theorem cultld (g : BitVec 4) (a : BitVec 6) (b : BitVec 6) : Statement (.cultld g a b) := fun _ => wOp_packA _ _ _ _ _ _
theorem rangeset (g : BitVec 4) (a : BitVec 6) (b : BitVec 6) : Statement (.rangeset g a b) := fun _ => wOp_packA _ _ _ _ _ _
theorem holdTimeout (core ctx : Nat) : Statement (.holdTimeout core ctx) := fun h => Bool.noConfusion h
theorem landingReservationExpiry (core ctx : Nat) : Statement (.landingReservationExpiry core ctx) := fun h => Bool.noConfusion h
theorem parkGeReadComplete (core ctx : Nat) : Statement (.parkGeReadComplete core ctx) := fun h => Bool.noConfusion h
theorem nputLanding (core ctx : Nat) : Statement (.nputLanding core ctx) := fun h => Bool.noConfusion h
theorem ldaLanding (core ctx n : Nat) : Statement (.ldaLanding core ctx n) := fun h => Bool.noConfusion h
theorem vldaLanding (core ctx n : Nat) : Statement (.vldaLanding core ctx n) := fun h => Bool.noConfusion h
theorem storePerformed (core ctx n : Nat) : Statement (.storePerformed core ctx n) := fun h => Bool.noConfusion h
theorem pstAcknowledge (core entry : Nat) : Statement (.pstAcknowledge core entry) := fun h => Bool.noConfusion h
theorem pstRefusal (core entry : Nat) : Statement (.pstRefusal core entry) := fun h => Bool.noConfusion h
theorem cfetchFillLanded (core slot : Nat) : Statement (.cfetchFillLanded core slot) := fun h => Bool.noConfusion h
theorem fetchSlotFill (quad slot : Nat) : Statement (.fetchSlotFill quad slot) := fun h => Bool.noConfusion h
theorem copyCounterAdd (core slot : Nat) : Statement (.copyCounterAdd core slot) := fun h => Bool.noConfusion h
theorem matrixOperationFinish (quad n : Nat) : Statement (.matrixOperationFinish quad n) := fun h => Bool.noConfusion h
theorem mxcmdArrival (n : Nat) : Statement (.mxcmdArrival n) := fun h => Bool.noConfusion h
theorem mxcmdAcceptance (quad : Nat) : Statement (.mxcmdAcceptance quad) := fun h => Bool.noConfusion h
theorem mxcmdRefusalReturn (n : Nat) : Statement (.mxcmdRefusalReturn n) := fun h => Bool.noConfusion h
theorem flitArrival (core ch : Nat) : Statement (.flitArrival core ch) := fun h => Bool.noConfusion h
theorem scopeMissMessage (n : Nat) : Statement (.scopeMissMessage n) := fun h => Bool.noConfusion h
theorem suspRegistration (n : Nat) : Statement (.suspRegistration n) := fun h => Bool.noConfusion h
theorem heldLaunchEnqueue (vf queue : Nat) : Statement (.heldLaunchEnqueue vf queue) := fun h => Bool.noConfusion h
theorem dispatch (part : Nat) : Statement (.dispatch part) := fun h => Bool.noConfusion h
theorem segmentZeroLoad (hoop : Nat) : Statement (.segmentZeroLoad hoop) := fun h => Bool.noConfusion h
theorem hoopStart (hoop : Nat) : Statement (.hoopStart hoop) := fun h => Bool.noConfusion h
theorem sliceExpiry (hoop : Nat) : Statement (.sliceExpiry hoop) := fun h => Bool.noConfusion h
theorem doneAdd (hoop : Nat) : Statement (.doneAdd hoop) := fun h => Bool.noConfusion h
theorem l1UnfusionComplete (quad : Nat) : Statement (.l1UnfusionComplete quad) := fun h => Bool.noConfusion h
theorem gangSwitchStop (part : Nat) : Statement (.gangSwitchStop part) := fun h => Bool.noConfusion h
theorem gangSwitchSave (part : Nat) : Statement (.gangSwitchSave part) := fun h => Bool.noConfusion h
theorem resume (part : Nat) : Statement (.resume part) := fun h => Bool.noConfusion h
theorem cultureFlush (line : Nat) : Statement (.cultureFlush line) := fun h => Bool.noConfusion h
theorem cultureAck (line : Nat) : Statement (.cultureAck line) := fun h => Bool.noConfusion h
theorem cultureCheckComplete (core ctx : Nat) : Statement (.cultureCheckComplete core ctx) := fun h => Bool.noConfusion h
theorem rangesetPerformed (core ctx : Nat) : Statement (.rangesetPerformed core ctx) := fun h => Bool.noConfusion h
theorem tlbinvPerformed (core ctx : Nat) : Statement (.tlbinvPerformed core ctx) := fun h => Bool.noConfusion h
theorem leaseExpiry (quad : Nat) : Statement (.leaseExpiry quad) := fun h => Bool.noConfusion h
theorem railStep (tile : Nat) : Statement (.railStep tile) := fun h => Bool.noConfusion h
theorem railHoldExpiry (tile : Nat) : Statement (.railHoldExpiry tile) := fun h => Bool.noConfusion h
theorem illegalInstruction (cause : BitVec 6) (word : W32) : Statement (.illegalInstruction cause word) := fun h => Bool.noConfusion h
theorem homeAgentProbe (line part : Nat) : Statement (.homeAgentProbe line part) := fun h => Bool.noConfusion h
theorem copyLastBytePerformed (core slot : Nat) : Statement (.copyLastBytePerformed core slot) := fun h => Bool.noConfusion h
theorem pinReleaseComplete (tile : Nat) : Statement (.pinReleaseComplete tile) := fun h => Bool.noConfusion h
theorem holdConditionClears (core ctx : Nat) : Statement (.holdConditionClears core ctx) := fun h => Bool.noConfusion h
theorem lineFillComplete (core line : Nat) : Statement (.lineFillComplete core line) := fun h => Bool.noConfusion h
theorem pageWalkComplete (core : Nat) (va : W64) : Statement (.pageWalkComplete core va) := fun h => Bool.noConfusion h
theorem copySectorFault (core slot : Nat) : Statement (.copySectorFault core slot) := fun h => Bool.noConfusion h
theorem missedPromise (core slot : Nat) : Statement (.missedPromise core slot) := fun h => Bool.noConfusion h
theorem asyncTrapDelivery (core ctx : Nat) : Statement (.asyncTrapDelivery core ctx) := fun h => Bool.noConfusion h
theorem launchWindowWrite (vf queue line off len : Nat) (data : BitVec 512) : Statement (.launchWindowWrite vf queue line off len data) := fun h => Bool.noConfusion h
theorem launchPacket (port seq scheduler : Nat) (rec : BitVec 512) : Statement (.launchPacket port seq scheduler rec) := fun h => Bool.noConfusion h
theorem deficitCharge : Statement .deficitCharge := fun h => Bool.noConfusion h
theorem hoopAbort (hoop : Nat) : Statement (.hoopAbort hoop) := fun h => Bool.noConfusion h
theorem debugStop (core ctx : Nat) : Statement (.debugStop core ctx) := fun h => Bool.noConfusion h
theorem debugRelease (core ctx : Nat) : Statement (.debugRelease core ctx) := fun h => Bool.noConfusion h
theorem debugStep (core ctx : Nat) : Statement (.debugStep core ctx) := fun h => Bool.noConfusion h
theorem debugFreeze (hoop : Nat) : Statement (.debugFreeze hoop) := fun h => Bool.noConfusion h
theorem debugThaw (hoop : Nat) : Statement (.debugThaw hoop) := fun h => Bool.noConfusion h
theorem gangSwitchRequest (part time : Nat) (needed : List Nat) : Statement (.gangSwitchRequest part time needed) := fun h => Bool.noConfusion h
theorem quadVfAssign (quad vf : Nat) : Statement (.quadVfAssign quad vf) := fun h => Bool.noConfusion h
theorem vfConfiguration (vf : Nat) (rec : VfRecord) : Statement (.vfConfiguration vf rec) := fun h => Bool.noConfusion h
theorem partitionConfiguration (part : Nat) (rec : PartRecord) : Statement (.partitionConfiguration part rec) := fun h => Bool.noConfusion h
theorem rangeTableConfiguration (entry vf : Nat) : Statement (.rangeTableConfiguration entry vf) := fun h => Bool.noConfusion h
theorem localWindowEntryWrite (core ctx n : Nat) : Statement (.localWindowEntryWrite core ctx n) := fun h => Bool.noConfusion h
theorem selfTestComplete (unit : TestUnit) (bank : Nat) (pass : Bool) : Statement (.selfTestComplete unit bank pass) := fun h => Bool.noConfusion h
theorem cultureRd (line part : Nat) : Statement (.cultureRd line part) := fun h => Bool.noConfusion h
theorem cultureRdx (line part : Nat) : Statement (.cultureRdx line part) := fun h => Bool.noConfusion h
theorem cultureWrl (line part : Nat) : Statement (.cultureWrl line part) := fun h => Bool.noConfusion h
theorem cultureAmo (line part : Nat) : Statement (.cultureAmo line part) := fun h => Bool.noConfusion h
theorem cultureRed (line part : Nat) : Statement (.cultureRed line part) := fun h => Bool.noConfusion h
theorem cultureHrd (pa size : Nat) : Statement (.cultureHrd pa size) := fun h => Bool.noConfusion h
theorem cultureHwr (pa size : Nat) (data : BitVec 512) : Statement (.cultureHwr pa size data) := fun h => Bool.noConfusion h
theorem cultureHamo (op pa size : Nat) (operand compare : BitVec 128) : Statement (.cultureHamo op pa size operand compare) := fun h => Bool.noConfusion h
theorem cultureEvc (line part : Nat) : Statement (.cultureEvc line part) := fun h => Bool.noConfusion h
theorem cultureWb (line part : Nat) : Statement (.cultureWb line part) := fun h => Bool.noConfusion h
theorem cultureAcq (line part : Nat) : Statement (.cultureAcq line part) := fun h => Bool.noConfusion h
theorem cultureRel (line part : Nat) : Statement (.cultureRel line part) := fun h => Bool.noConfusion h
theorem cultureFlip (line : Nat) : Statement (.cultureFlip line) := fun h => Bool.noConfusion h
theorem cultureData (line : Nat) : Statement (.cultureData line) := fun h => Bool.noConfusion h
theorem homeMessageTimeout (line : Nat) : Statement (.homeMessageTimeout line) := fun h => Bool.noConfusion h
theorem ringConsPoll (ring : Nat) : Statement (.ringConsPoll ring) := fun h => Bool.noConfusion h
theorem hwatchCommit (vf : Nat) (word3 : W64) : Statement (.hwatchCommit vf word3) := fun h => Bool.noConfusion h
theorem hcancelWrite (vf token : Nat) : Statement (.hcancelWrite vf token) := fun h => Bool.noConfusion h
theorem reportRequest (vf requester : Nat) : Statement (.reportRequest vf requester) := fun h => Bool.noConfusion h
theorem linkReportRequest (port vf : Nat) (nonce : BitVec 384) : Statement (.linkReportRequest port vf nonce) := fun h => Bool.noConfusion h
theorem usageReportComplete : Statement .usageReportComplete := fun h => Bool.noConfusion h
theorem registerPageWrite (vf off : Nat) (data : W64) : Statement (.registerPageWrite vf off data) := fun h => Bool.noConfusion h
theorem linkMemoryOperation (port vf op pa size : Nat) (operand compare : W64) : Statement (.linkMemoryOperation port vf op pa size operand compare) := fun h => Bool.noConfusion h
theorem budgetTick (power cold : Nat) (energy : List (Nat × Nat)) : Statement (.budgetTick power cold energy) := fun h => Bool.noConfusion h
theorem coolantAlarm : Statement .coolantAlarm := fun h => Bool.noConfusion h
theorem deviceReset : Statement .deviceReset := fun h => Bool.noConfusion h
theorem softError (place : SoftPlace) (correctable : Bool) : Statement (.softError place correctable) := fun h => Bool.noConfusion h
theorem deviceRequestRepeat (core ctx n : Nat) : Statement (.deviceRequestRepeat core ctx n) := fun h => Bool.noConfusion h
theorem participantReportsGated (part : Nat) : Statement (.participantReportsGated part) := fun h => Bool.noConfusion h
theorem vfReset (vf : Nat) : Statement (.vfReset vf) := fun h => Bool.noConfusion h
theorem firmwareUpdate (version : Nat) : Statement (.firmwareUpdate version) := fun h => Bool.noConfusion h
theorem debuggerAttach (hoop : Nat) : Statement (.debuggerAttach hoop) := fun h => Bool.noConfusion h
theorem debuggerDetach (hoop : Nat) : Statement (.debuggerDetach hoop) := fun h => Bool.noConfusion h
theorem debugStateWrite (core ctx : Nat) (what : DebugWrite) : Statement (.debugStateWrite core ctx what) := fun h => Bool.noConfusion h

end Laws.Major

end Sys2Proof
end

