-- ==== Sys2Proof/Laws/Translate.lean ====
section
/-!
SUPPORT. Translation changes nothing but the cached translations (R202), and what that leaves of the machine as an
instruction sees it.
-/

namespace Sys2Proof.Machine

theorem Cached.refl (s : State) : Cached s s := ⟨rfl, rfl, rfl, rfl, rfl, rfl, rfl, rfl, fun _ => rfl, fun _ => rfl⟩

theorem Cached.trans {s t u : State} (h : Cached s t) (k : Cached t u) : Cached s u :=
  ⟨k.mem.trans h.mem, k.poison.trans h.poison, k.quads.trans h.quads, k.hub.trans h.hub, k.cur.trans h.cur,
    k.schedule.trans h.schedule, k.choices.trans h.choices, k.draws.trans h.draws, fun n => (k.cores n).trans (h.cores n),
    fun t => (k.tiles t).trans (h.tiles t)⟩

theorem cached_modCore (s : State) (n : Nat) (l : List TlbEntry) : Cached s (s.modCore n (fun c => { c with tlb := l })) := by
  refine ⟨rfl, rfl, rfl, rfl, rfl, rfl, rfl, rfl, fun m => ?_, fun _ => rfl⟩
  rw [State.core_modCore]
  split
  · next h => rw [h]
  · rfl

theorem cached_modTile (s : State) (n : Nat) (l : List TlbEntry) : Cached s (s.modTile n (fun c => { c with tlb := l })) := by
  refine ⟨rfl, rfl, rfl, rfl, rfl, rfl, rfl, rfl, fun _ => rfl, fun m => ?_⟩
  rw [State.tile_modTile]
  split
  · next h => rw [h]
  · rfl

/-- A walk adds to the walk cache only. -/
theorem cached_walked (s : State) (vf va : Nat) : Cached s (s.walked vf va) := by
  unfold State.walked
  dsimp only
  split
  · exact Cached.refl s
  · exact ⟨rfl, rfl, rfl, rfl, rfl, rfl, rfl, rfl, fun _ => rfl, fun _ => rfl⟩

/-- What a lookup changes (R202). -/
theorem lookupNow_cached (s : State) (w : Who) (va : Nat) : Cached s (s.lookupNow w va).1 := by
  have hc (t : State) (e : TlbEntry) (b : Bool) :
      Cached t (if b = true then t.modCore w.core (fun c => { c with tlb := tlbAdd 64 e c.tlb }) else t) := by
    split
    · exact cached_modCore t w.core (tlbAdd 64 e (t.core w.core).tlb)
    · exact Cached.refl t
  unfold State.lookupNow
  dsimp only
  split
  · exact Cached.refl s
  · split
    · exact hc s _ _
    · split
      · next e _ =>
        exact ((cached_walked s w.vf va).trans
          (cached_modTile _ (tileOf w.core) (tlbAdd 4096 e ((s.walked w.vf va).tile (tileOf w.core)).tlb))).trans (hc _ e _)
      · exact Cached.refl s

theorem endWalk_cached (s : State) (r : WalkReq) : Cached s (s.endWalk r) := by
  refine Cached.trans ?_ (lookupNow_cached _ _ _)
  exact ⟨rfl, rfl, rfl, rfl, rfl, rfl, rfl, rfl, fun _ => rfl, fun _ => rfl⟩

theorem lookup_cached (s : State) (w : Who) (va : Nat) : Cached s (s.lookup w va).1 := by
  have h (l : List WalkReq) (t : State) : Cached t (l.foldl (fun t r => t.endWalk r) t) := by
    induction l generalizing t with
    | nil => exact Cached.refl t
    | cons r l ih => exact (endWalk_cached t r).trans (ih _)
  unfold State.lookup
  dsimp only
  split
  · exact (h _ s).trans (lookupNow_cached _ _ _)
  · exact lookupNow_cached s w va

/-- What the translation of one address changes. -/
theorem place_cached (s : State) (w : Who) (a : Acc) (va : Nat) : Cached s (s.place w a va).1 := by
  have hl := lookup_cached s w va
  unfold State.place
  split
  · exact Cached.refl s
  · split
    · dsimp only
      split
      · exact Cached.refl s
      · split <;> exact Cached.refl s
    · split
      · split <;> exact Cached.refl s
      · split
        · split <;> exact Cached.refl s
        · split <;> simp_all

/-! What an instruction sees is the same before and after. -/

theorem Cached.ctx {s u : State} (h : Cached s u) (n k : Nat) : u.ctx n k = s.ctx n k := by
  have := congrArg Core.ctxs (h.cores n)
  simp only [State.ctx, Core.ctx] at this ⊢
  rw [this]
theorem Cached.cx {s u : State} (h : Cached s u) : u.cx = s.cx := by
  unfold State.cx
  rw [h.cur, h.ctx]
theorem Cached.ws {s u : State} (h : Cached s u) : u.ws = s.ws := by
  rw [ws_eq_wsOf, ws_eq_wsOf]
  exact wsOf_congr (by rw [h.cur]) (by rw [h.ctx, h.cur])
theorem Cached.peek {s u : State} (h : Cached s u) (a n : Nat) : u.peek a n = s.peek a n := by
  unfold State.peek
  rw [h.mem]
theorem Cached.byte {s u : State} (h : Cached s u) (a : Nat) : u.byte a = s.byte a := by
  unfold State.byte
  rw [h.mem]
theorem Cached.getS {s u : State} (h : Cached s u) (n : BitVec 6) : u.getS n = s.getS n := by
  unfold State.getS
  rw [h.ws, h.peek]
theorem Cached.getV {s u : State} (h : Cached s u) (n : BitVec 5) (j : Nat) : u.getV n j = s.getV n j := by
  unfold State.getV
  rw [h.ws, h.peek]
theorem Cached.getP {s u : State} (h : Cached s u) (n : BitVec 3) : u.getP n = s.getP n := by
  unfold State.getP
  rw [h.ws, h.peek]
theorem Cached.guard {s u : State} (h : Cached s u) (g : BitVec 4) : u.guard g = s.guard g := by
  unfold State.guard
  rw [h.getP]
theorem Cached.item {s u : State} (h : Cached s u) (a n : Nat) : u.item a n = s.item a n := by
  unfold State.item
  rw [h.ws, h.peek]
theorem Cached.flags {s u : State} (h : Cached s u) : u.flags = s.flags := by
  unfold State.flags
  rw [h.item]
theorem Cached.priv {s u : State} (h : Cached s u) : u.priv = s.priv := by
  unfold State.priv
  rw [h.cx]
theorem Cached.quad {s u : State} (h : Cached s u) (q : Nat) : u.quad q = s.quad q := by
  unfold State.quad
  rw [h.quads]
theorem Cached.q {s u : State} (h : Cached s u) : u.q = s.q := by
  unfold State.q
  rw [h.cur]
theorem Cached.myVf {s u : State} (h : Cached s u) : u.myVf = s.myVf := by
  unfold State.myVf
  rw [h.quad, h.q]
theorem Cached.me {s u : State} (h : Cached s u) : u.me = s.me := by
  unfold State.me
  rw [h.cur, h.myVf, h.priv, h.q]
theorem Cached.wordPc {s u : State} (h : Cached s u) : u.wordPc = s.wordPc := by
  unfold State.wordPc
  rw [h.cx]
theorem Cached.nextPc {s u : State} (h : Cached s u) : u.nextPc = s.nextPc := by
  unfold State.nextPc
  rw [h.wordPc]
theorem Cached.arrival {s u : State} (h : Cached s u) (n : Nat) : u.arrival n = s.arrival n := h.item _ _
theorem Cached.roundMode {s u : State} (h : Cached s u) : u.roundMode = s.roundMode := by
  unfold State.roundMode
  rw [h.item]

theorem Cached.fieldReads {s u : State} (h : Cached s u) (i : Instr) : u.fieldReads i = s.fieldReads i := by
  unfold State.fieldReads State.commandRegs
  cases i <;> simp only [h.getS]
theorem Cached.regWords {s u : State} (h : Cached s u) (r : Reg) : u.regWords r = s.regWords r := by
  unfold State.regWords
  simp only [h.ws, h.peek]

/-- The device's discretion does not depend on cached translations. -/
theorem Cached.discretion {s u : State} (h : Cached s u) (i : Instr) : u.discretion i = s.discretion i := by
  have hr : u.retryCount i = s.retryCount i := by
    unfold State.retryCount State.seqValues
    rw [h.cx, h.wordPc, h.fieldReads]
    simp only [h.regWords]
  unfold State.discretion
  rw [h.choices, h.cx, hr]

theorem discretion4_zero {s : State} {i : Instr} (h : s.discretion i = 0) (w : Who) (l : List Nat) : s.discretion4 i w l = 0 := by
  simp [State.discretion4, h]
theorem discretion6_zero {s : State} {i : Instr} (h : s.discretion i = 0) : s.discretion6 i = 0 := by
  simp [State.discretion6, h]

/-- A step of the device's discretion that takes no turn. -/
theorem device_zero {s : State} {i : Instr} (h : s.discretion i = 0) (l : List Nat) (rest : Unit → Res) :
    s.device i l rest = rest () := by
  simp [State.device, discretion6_zero h]

/-- An access that the homes of its lines serve. -/
theorem deviceAt_served {s : State} {i : Instr} {runs : List (Nat × Nat)} {ev : Nat} (h : s.discretion i = 0)
    (hs : Served s runs ev) (rest : Unit → Res) : s.deviceAt i runs ev rest = rest () := by
  unfold State.deviceAt
  rw [device_zero h]
  simp [show s.askBusy (tileOf s.cur.core) runs ev = false from hs]

/-- An access that goes through. -/
theorem reach_through {i : Instr} {a : Acc} {pieces : List (Nat × Nat)} {s u : State} {ps : List Part}
    (h : Reaches i a pieces s u ps) (trc : Nat) (rest : State → List Part → Res) :
    s.reach i a pieces trc rest = rest u ps := by
  simp [State.reach, h.found, discretion4_zero h.willing]

/-! An access of a quiet context waits for nothing. -/

theorem landThose_none {s : State} {n k : Nat} (h : (s.ctx n k).ldas = []) (f : Lda → Bool) : s.landThose n k f = s := by
  simp [State.landThose, h]

theorem flushThose_none {s : State} {n k : Nat} (h : (s.ctx n k).ops = []) (f : Nat → Nat → Bool) : s.flushThose n k f = s := by
  simp [State.flushThose, h]

theorem beforeRead_quiet {s : State} {n k : Nat} (h : (s.ctx n k).ldas = []) (ho : (s.ctx n k).ops = [])
    (r : List (Nat × Nat)) (b : Bool) : s.beforeRead n k r b = s := by
  unfold State.beforeRead State.beforeAccess
  rw [landThose_none h, flushThose_none ho]

theorem settlePosts_none {s : State} {n k : Nat}
    (h : ∀ e ∈ (s.core n).journal, e.2.state = .pending → e.2.owner ≠ k) (f : JEntry → Bool) : s.settlePosts n k f = s := by
  have h0 : s.pendingPosts n k = [] := by
    unfold State.pendingPosts
    have : (s.core n).journal.filter (fun e => e.2.state = .pending && e.2.owner = k) = [] := by
      rw [List.filter_eq_nil_iff]
      intro e he
      simp only [Bool.and_eq_true, decide_eq_true_eq]
      exact fun x => h e he x.1 x.2
    rw [this]
    exact List.mergeSort_nil
  simp [State.settlePosts, State.postsOf, h0]

theorem performThrough_none {s : State} {n k : Nat} (h : (s.ctx n k).stores = []) (f : PendStore → Bool) :
    s.performThrough n k f = s := by
  simp [State.performThrough, h]

/-- In a quiet context nothing is left to perform. -/
theorem performAll_quiet {s : State} (h : Quiet s) : s.performAll s.cur.core s.cur.ctx = s := by
  have hl : (s.ctx s.cur.core s.cur.ctx).ldas = [] := h.ldas
  have hs : (s.ctx s.cur.core s.cur.ctx).stores = [] := h.stores
  have ho : (s.ctx s.cur.core s.cur.ctx).ops = [] := h.ops
  have hp : s.performFirst s.cur.core s.cur.ctx 0 = s := by simp [State.performFirst]
  have hq := settlePosts_none h.posts
  simp [State.performAll, State.performEach, landThose_none hl, hs, hp, hq, flushThose_none ho, State.raiseRel, h.lines]

theorem Cached.journal {s u : State} (h : Cached s u) (n : Nat) : (u.core n).journal = (s.core n).journal := by
  simpa using congrArg Core.journal (h.cores n)
theorem Cached.copies {s u : State} (h : Cached s u) (n : Nat) : (u.core n).copies = (s.core n).copies := by
  simpa using congrArg Core.copies (h.cores n)
theorem Cached.hoopOf {s u : State} (h : Cached s u) (n : Nat) : (u.core n).hoop = (s.core n).hoop := by
  simpa using congrArg Core.hoop (h.cores n)

/-- Where the lines stand at their homes does not depend on cached translations. -/
theorem Cached.relLines {s u : State} (h : Cached s u) (t : Nat) : u.relLines t = s.relLines t := by
  have hd : u.hub.dir = s.hub.dir := by simpa using congrArg Hub.dir h.hub
  have hr : u.hub.ranges = s.hub.ranges := by simpa using congrArg Hub.ranges h.hub
  have hc : u.hub.cultures = s.hub.cultures := by simpa using congrArg Hub.cultures h.hub
  have hs (pa : Nat) : u.rangeSlot pa = s.rangeSlot pa := by unfold State.rangeSlot; rw [hr]
  have hm (n st : Nat) : u.mergeState n st = s.mergeState n st := by unfold State.mergeState; rw [hc]
  simp only [State.relLines, State.privateLines, hs, hm, hd]

theorem Cached.quiet {s u : State} (h : Cached s u) (q : Quiet s) : Quiet u :=
  ⟨by rw [h.cx]; exact q.ldas, by rw [h.cx]; exact q.stores, by rw [h.cur, h.journal]; exact q.posts,
    by rw [h.cx]; exact q.ops, by rw [h.cur, h.relLines]; exact q.lines⟩

end Sys2Proof.Machine
end

