-- ==== Sys2Proof/Tests/Slice0.lean ====
section
/-!
SUPPORT. Tests: ill-formed terms, words of the manual, single steps, and for each statement of
Certificates/Slice0/Obligations.lean a state and operands that meet its hypotheses.
-/

set_option Elab.async false

namespace Sys2Proof.Tests

open Sys2Proof Sys2Proof.Machine

/-! Ill-formed terms (R73 to R76; R12, R14). -/

theorem test_ill_selector : Instr.wellFormed (.amo 1 7 1 2 3 10) = false := by decide
theorem test_ill_condition : Instr.wellFormed (.cmp 7 1 2 3 4 11) = false := by decide
theorem test_ill_reserved : Instr.wellFormed (.hint 1 3 0) = false ∨ Instr.wellFormed (.mod 6 0 0) = false := by decide
theorem test_ill_name : Instr.wellFormed (.vunpk 7 1 2 0x00 1) = false := by decide
theorem test_ill_unit : Instr.wellFormed (.holdTimeout 1536 0) = false ∧ Instr.wellFormed (.matrixOperationFinish 384 0) = false := by
  decide
theorem test_well_formed : Instr.wellFormed (.add 9 4 1 2) = true ∧ Instr.wellFormed (.holdTimeout 1535 15) = true := by decide

/-! Words written out from the encodings of the manual (R60 to R75). -/

theorem test_words_integer :
    decode 0x11C30420 = .ok (.add 7 3 1 2) ∧ decode 0x12440421 = .ok (.sub 9 4 1 2) ∧ decode 0x15C4146F = .ok (.lea 7 4 5 6 3) ∧
      decode 0x19C1083D = .ok (.sel 7 1 2 3 1 5) ∧ decode 0x1DC20000 = .ok (.movi 7 2 0) ∧
      decode 0x2DC30E07 = .ok (.sari 7 3 3 7) := by decide
theorem test_words_compare_and_control :
    decode 0x31CA0422 = .ok (.cmp 7 1 2 1 2 2) ∧ decode 0x39C80832 = .ok (.pxor 7 1 2 3) ∧ decode 0x41FFFFFE = .ok (.jmp 0x3FFFFE) ∧
      decode 0x40400010 = .ok (.br 1 16) ∧ decode 0x49C903FC = .ok (.loop 7 9 0x3FC) ∧ decode 0x4DC0FC02 = .ok (.ret 7 63) ∧
      decode 0x4DCA0007 = .ok (.parkNbV 7 5) ∧ decode 0x13C00000 = .ok .nop := by decide
theorem test_words_prefix :
    decode 0x00100000 = .ok (.imm 0x100000) ∧ decode 0x04000000 = .ok (.onnr 0) := by decide
theorem test_words_vector_and_float :
    decode 0x50461080 = .ok (.vadd 1 3 1 1) ∧ decode 0x51C221AA = .ok (.vmin 7 1 2 3 1) ∧ decode 0x51C21112 = .ok (.vcmp 7 1 1 2 2) ∧
      decode 0x55C92002 = .ok (.vredAdd 7 9 4) ∧ decode 0x59C85303 = .ok (.vfma 7 4 5 6) ∧
      decode 0x5DC228E6 = .ok (.vpack 7 1 2 0x23 2) ∧ decode 0x61C30420 = .ok (.fadd 7 3 1 2) ∧
      decode 0x81C10830 = .ok (.mxmul 7 1 2 3) := by decide
theorem test_words_memory :
    decode 0xA1C40B00 = .ok (.ld 7 4 2 6 0) ∧ decode 0xA5C40B7F = .ok (.st 7 4 2 3 0x7F) ∧ decode 0xA9C40A83 = .ok (.lda 7 4 2 2 1 3) ∧
      decode 0xC5C40869 = .ok (.amo 1 7 4 2 6 9) ∧ decode 0xF1C40A40 = .ok (.relst 7 4 2 4 1) := by decide
theorem test_words_queues_and_system :
    decode 0xD1C41460 = .ok (.tladd 7 4 5 6) ∧ decode 0xD5C01406 = .ok (.cpset 7 5 6) ∧ decode 0xE1C31258 = .ok (.nput 7 3 4 2 5 1) ∧
      decode 0xE5C00420 = .ok (.send 7 1 2) ∧ decode 0xF9C52802 = .ok (.movc 7 5 10) := by decide
theorem test_words_refused :
    decode 0xA1C40B80 = .illegal ∧ decode 0x3C000000 = .illegal ∧ decode 0x51D21112 = .reserved (.vcmp 7 1 1 2 2) := by decide
theorem test_decodeTableWord : decodeTableWord 32 0x11C30420 = some (.add 7 3 1 2) ∧ decodeTableWord 32 0x3C000000 = none := by decide

/-! Single steps. -/

/-- Context 0 of core 0, READY and issuing. -/
def ready : State := State.reset.modCtx 0 0 (fun x => { x with st := .ready })
/-- The same, in a trap handler. -/
def handler : State := (ready.setFlags 0x800000).modCx (fun x => { x with st := .away })
/-- Values in scalar registers. -/
def regs (s : State) (l : List (BitVec 6 × W64)) : State := l.foldl (fun t p => t.setS p.1 p.2) s
/-- Prefixes issued. -/
def after (s : State) (l : List Instr) : State := s.modCx (fun x => { x with chain := l })
/-- A next state of which f holds. -/
def gives (o : Host.Outcome State Fault Refusal) (f : State → Bool) : Bool := match o with | .next t => f t | _ => false
/-- The word of an instruction as the next step's, in state s. -/
def stepped (s : State) (i : Instr) (f : State → Bool) : Bool := gives (step (s.withFetchWord 32 (encode i).toNat)) f

-- The pc passes on, and S[1] takes the sign-extended immediate (R101).
theorem test_step_movi : stepped State.reset (.movi 7 1 0x3FB) (fun t => t.getS 1 == -5 && t.cx.pc == 1) = true := by decide
-- A word that is no instruction traps with 0x01 (R75) and enters the handler (R333).
theorem test_step_illegal :
    gives (step (State.reset.withFetchWord 32 0x3C000000)) (fun t => t.cx.st == .away && t.flags == 0x1800000) = true := by decide
-- 2^64 - 1 plus 1 wraps to 0 (R93); under MOD.SAT, 2^63 - 1 plus 1 stays (R93).
theorem test_add_wraps : gives (exec (.add 7 3 1 2) (regs ready [(1, -1), (2, 1)])) (fun t => t.getS 3 == 0) = true := by decide
theorem test_add_saturates : gives (exec (.add 7 3 1 2) (after (regs ready [(1, 0x7FFFFFFFFFFFFFFF), (2, 1)]) [.mod 0 1 0]))
    (fun t => t.getS 3 == 0x7FFFFFFFFFFFFFFF) = true := by decide
-- A write of s0 is discarded (R78).
theorem test_add_s0 : gives (exec (.add 7 0 1 1) (regs ready [(1, 5)])) (fun t => t.getS 0 == 0) = true := by decide
-- Division by 0, and the one overflow (R96).
theorem test_div_zero : gives (exec (.div 7 3 1 2) (regs ready [(1, 5)])) (fun t => t.getS 3 == -1) = true := by decide
theorem test_div_overflow : gives (exec (.div 7 3 1 2) (regs ready [(1, 0x8000000000000000), (2, -1)]))
    (fun t => t.getS 3 == 0x8000000000000000) = true := by decide
theorem test_rem_sign : gives (exec (.rem 7 3 1 2) (regs ready [(1, -7), (2, 2)])) (fun t => t.getS 3 == -1) = true := by decide
theorem test_mulh : gives (exec (.mulh 7 3 1 2) (regs ready [(1, -1), (2, 2)])) (fun t => t.getS 3 == -1) = true := by decide
theorem test_mulhu : gives (exec (.mulhu 7 3 1 2) (regs ready [(1, -1), (2, 2)])) (fun t => t.getS 3 == 1) = true := by decide
-- A shift count is taken modulo 64 (R95).
theorem test_shl_modulo : gives (exec (.shl 7 3 1 2) (regs ready [(1, 3), (2, 65)])) (fun t => t.getS 3 == 6) = true := by decide
theorem test_rot : gives (exec (.rot 7 3 1 2) (regs ready [(1, 0x8000000000000000), (2, 1)])) (fun t => t.getS 3 == 1) = true := by decide
-- Position 8, length 4; length code 0 is 64, cut at the top (R98).
theorem test_ext : gives (exec (.ext 7 3 1 2) (regs ready [(1, 0xABCD), (2, 0x408)])) (fun t => t.getS 3 == 0xB) = true := by decide
theorem test_exts : gives (exec (.extS 7 3 1 2) (regs ready [(1, 0xABCD), (2, 0x408)])) (fun t => t.getS 3 == -5) = true := by decide
theorem test_ins : gives (exec (.ins 7 3 1 2) (regs ready [(1, 0xF), (2, 0x404), (3, 0)])) (fun t => t.getS 3 == 0xF0) = true := by decide
theorem test_clz_zero : gives (exec (.clz 7 3 1) ready) (fun t => t.getS 3 == 64) = true := by decide
-- An IMM puts 26 bits above the field (R68).
theorem test_imm : gives (exec (.movi 7 1 5) (after ready [.imm 1])) (fun t => t.getS 1 == 0x405) = true := by decide
-- A compare writes a pair of predicates (R103); with a false guard both are 0.
theorem test_cmp : gives (exec (.cmp 7 1 2 1 2 2) (regs ready [(1, 3), (2, 5)])) (fun t => t.getP 1 == 0xFFFFFFFF && t.getP 2 == 0) = true := by
  decide
theorem test_cmp_false : gives (exec (.cmp 3 1 2 1 2 2) (regs ready [(1, 3), (2, 5)])) (fun t => t.getP 1 == 0 && t.getP 2 == 0) = true := by
  decide
-- A branch goes to its offset from its own word (R64); LOOP stops at 0 (R110).
theorem test_br : gives (exec (.br 7 16) ready) (fun t => t.cx.pc == 16) = true := by decide
theorem test_call : gives (exec (.call 7 16) ready) (fun t => t.getS 63 == 1 && t.cx.pc == 16) = true := by decide
theorem test_loop_ends : gives (exec (.loop 7 9 0x3FC) (regs ready [(9, 1)])) (fun t => t.getS 9 == 0 && t.cx.pc == 1) = true := by decide
theorem test_jmpr_wide : gives (exec (.jmpr 7 1) (regs ready [(1, 0x4000)])) (fun t => t.flags == 0x5800000 && t.tval == 0x4000) = true := by
  decide
-- Lanes wrap; a reduction is sign-extended (R144, R148).
theorem test_vadd : gives (exec (.vadd 7 3 1 1) (ready.setV 1 0x80 (fun _ => 0x80000001))) (fun t => t.getV 3 7 == 2) = true := by decide +kernel
theorem test_vred : gives (exec (.vredAdd 7 9 4) (ready.setV 4 0x82 (fun _ => -1))) (fun t => t.getS 9 == -2) = true := by decide +kernel
-- 1.0 + 1.0 = 2.0; a signalling NaN sets invalid (R121, R150).
theorem test_fadd : gives (exec (.fadd 7 3 1 1) (regs ready [(1, 0x3F800000)])) (fun t => t.getS 3 == 0x40000000 && t.flags == 0) = true := by
  decide
theorem test_fadd_nan : gives (exec (.fadd 7 3 1 1) (regs ready [(1, 0x7F800001)])) (fun t => t.getS 3 == 0x7FC00000 && t.flags == 16) = true := by
  decide
-- A store of the local window is read back, its low bytes first (R4, R210); LD.w sign-extends.
theorem test_st : gives (exec (.st 7 2 1 3 0) (regs ready [(1, 0x7FFFFFE80000), (2, 0x80000001)])) (fun t =>
    gives (exec (.ld 7 4 1 4 0) t) (fun u => u.getS 4 == 0xFFFFFFFF80000001 && u.getP 6 == 0xFFFFFFFF)) = true := by decide +kernel
theorem test_amo : gives (exec (.amo 1 7 4 1 2 0) (regs ready [(1, 0x7FFFFFE80000), (2, 7)])) (fun t => t.getS 4 == 0 && t.peek (quadLocal 0 + 0x80000) 8 == 7) = true := by decide +kernel
theorem test_amo_unaligned : gives (exec (.amo 1 7 4 1 2 0) (regs ready [(1, 0x7FFFFFE80004), (2, 7)])) (fun t =>
    t.flags == 0x4800000 && t.tval == 0x7FFFFFE80004) = true := by decide +kernel
-- TRAP names the next word, and TRET goes there (R336, R338).
theorem test_trap_and_return : gives (exec (.trap 7 5) ready) (fun t => t.tpc == 1 && t.tval == 5 && t.cx.st == .away) = true := by decide
theorem test_tret_in_user_mode : gives (exec (.tret 7) ready) (fun t => t.flags == 0x3800000) = true := by decide
-- MOVCW of a read-only number, and of a protected one, in user mode (R90).
theorem test_movcw_read_only : gives (exec (.movcw 7 1 1) ready) (fun t => t.flags == 0x1800000) = true := by decide
theorem test_movcw_protected : gives (exec (.movcw 7 12 1) ready) (fun t => t.flags == 0x3800000) = true := by decide
-- NTAKE of an absent register is not ready: p6 0, code 0x01 (R33, R87).
theorem test_ntake : gives (exec (.ntake 7 1 2 0) ready) (fun t => t.getP 6 == 0 && t.nrcnt == 1 && t.item 0x1234 4 == 1) = true := by decide

/-! Witnesses: for each statement, a state and operands that meet the hypotheses of its clauses. -/

/-- As Takes, of a machine with no poison, as one test. -/
def runs (i : Instr) (g : BitVec 4) (u : GuardUse) (s : State) : Bool :=
  i.accepts s.cx.chain && g != 15 && u.passes s g && s.poison.isEmpty

theorem takes_of {i : Instr} {g : BitVec 4} {u : GuardUse} {s : State} (h : runs i g u s = true) : Takes i g u s := by
  simp only [runs, Bool.and_eq_true, bne_iff_ne] at h
  exact ⟨h.1.1.1, h.1.1.2, .inr (by simp [State.regPoison, h.2]), h.1.2, by simp [State.readPoison, h.2]⟩

theorem takes_all {l : List Instr} {g : BitVec 4} {u : GuardUse} {s : State} (h : l.all (fun i => runs i g u s) = true) :
    ∀ i ∈ l, Takes i g u s := fun i hi => takes_of (List.all_eq_true.mp h i hi)

/-- As Reaches, as one test. -/
def reach (i : Instr) (a : Acc) (pieces : List (Nat × Nat)) (s : State) : Bool :=
  (s.xlate s.me a pieces).2.fault.isNone && !(s.xlate s.me a pieces).2.tr && s.discretion i == 0

theorem reaches_of {i : Instr} {a : Acc} {pieces : List (Nat × Nat)} {s : State} (h : reach i a pieces s = true) :
    Reaches i a pieces s (s.xlate s.me a pieces).1 (s.xlate s.me a pieces).2.parts := by
  simp only [reach, Bool.and_eq_true, Option.isNone_iff_eq_none, beq_iff_eq, Bool.not_eq_true'] at h
  refine ⟨?_, h.2⟩
  rcases e : s.xlate s.me a pieces with ⟨u, ps, f, b⟩
  rw [e] at h
  simp only at h
  simp [h.1.1, h.1.2]

theorem quiet_of {s : State} (h : (s.cx.ldas.isEmpty && s.cx.stores.isEmpty && s.cx.ops.isEmpty &&
    (s.core s.cur.core).journal.isEmpty && (s.relLines (tileOf s.cur.core)).isEmpty) = true) : Quiet s := by
  simp only [Bool.and_eq_true, List.isEmpty_iff] at h
  exact ⟨h.1.1.1.1, h.1.1.1.2, by simp [h.1.2], h.1.1.2, h.2⟩

theorem noHostWatch_of {s : State} (h : s.hub.waits.isEmpty = true) : NoHostWatch s := by
  rw [List.isEmpty_iff] at h
  intro e he
  rw [h] at he
  cases he

theorem wit_integer : ∀ i ∈ ([.add 9 3 1 2, .sub 9 3 1 2, .mul 9 3 1 2, .mulh 9 3 1 2, .mulhu 9 3 1 2, .and 9 3 1 2, .or 9 3 1 2,
    .xor 9 3 1 2, .shl 9 3 1 2, .shr 9 3 1 2, .sar 9 3 1 2, .rot 9 0 1 63, .div 9 3 1 2, .divu 9 3 1 2, .rem 9 3 1 2, .remu 9 3 1 2,
    .min 9 3 1 2, .max 9 3 1 2, .minu 9 3 1 2, .maxu 9 3 1 2, .mov 9 3 1, .ext 9 3 1 2, .extS 9 3 1 2, .ins 9 3 1 2, .clz 9 3 1,
    .ctz 9 3 1, .popc 9 3 1, .lea 9 3 1 2 3, .sel 9 3 1 2 1 7, .addi 9 3 1 0x3FF, .movi 9 3 1, .andi 9 3 1 1, .ori 9 3 1 1,
    .xori 9 3 1 1, .shli 9 3 1 63, .shri 9 3 1 0, .sari 9 3 1 5] : List Instr), Takes i 9 .scalar ready := takes_all (by decide)
theorem wit_integer_saturated : ∀ i ∈ ([.add 9 3 1 2, .sub 9 3 1 2, .mul 9 3 1 2, .addi 9 3 1 0x3FF] : List Instr),
    Takes i 9 .scalar (after ready [.mod 0 1 0]) := takes_all (by decide)
theorem wit_counts : (∃ n ≤ 64, (∀ j < n, (ready.getS 1).getLsbD j = false) ∧ n = 64) ∧ ∃ n < 64, (regs ready [(1, 2)] |>.getS 1).getLsbD n = true := by
  exact ⟨⟨64, by decide⟩, ⟨1, by decide⟩⟩
theorem wit_immediates : ∀ c ∈ ([[], [.imm 1], [.imm 1, .imm 0x3FFFFFF]] : List (List Instr)),
    ∀ i ∈ ([.addi 7 3 1 0x3FF, .movi 7 3 1, .andi 7 3 1 1, .ori 7 3 1 1, .xori 7 3 1 1, .cmpi 7 1 2 3 1 10] : List Instr),
      Takes i 7 .scalar (after ready c) :=
  fun c hc => takes_all (by revert c; decide)
theorem wit_compares : ∀ i ∈ ([.cmp 3 1 2 1 2 10, .cmpi 3 1 1 1 5 0] : List Instr), Takes i 3 .own ready := takes_all (by decide)
theorem wit_compare_outcomes : (condition 0 (ready.getS 1) (ready.getS 2) ∧ ready.holds 7 = true) ∧
    ¬(condition 1 (ready.getS 1) (ready.getS 2) ∧ ready.holds 7 = true) ∧ ¬(condition 0 (ready.getS 1) (ready.getS 2) ∧ ready.holds 3 = true) :=
  ⟨⟨(by decide : ready.getS 1 = ready.getS 2), by decide⟩, fun h => (by decide : ¬(ready.getS 1 ≠ ready.getS 2)) h.1, by
    rintro ⟨-, h⟩; revert h; decide⟩
theorem wit_predicates : ∀ i ∈ ([.pand 9 0 1 7, .por 9 7 1 2, .pxor 9 0 1 2, .pnot 9 0 1] : List Instr), Takes i 9 .lanes ready :=
  takes_all (by decide)

theorem wit_prefixes : (∀ i ∈ ([.imm 1, .onnr 0x3FFFFFF, .hint 0 0 0, .mod 5 1 2] : List Instr), ready.cx.chain.length < 2 ∧
      ∀ x ∈ ready.cx.chain, x.sameKind i = false) ∧
    ¬((after ready [.onnr 0]).cx.chain.length < 2 ∧ ∀ x ∈ (after ready [.onnr 0]).cx.chain, x.sameKind (.onnr 1) = false) ∧
    ¬(after ready [.imm 0, .imm 1]).cx.chain.length < 2 := by decide
theorem wit_false_guards : (Instr.add 15 3 1 2).accepts ready.cx.chain = true ∧ (Instr.add 15 3 1 2).guardField = 15 ∧
    (Instr.add 3 3 1 2).guardField = 3 ∧ ready.regPoison (guardReg 3) = none ∧ (useOf (.add 3 3 1 2)).passes ready 3 = false ∧
    (Instr.vadd 3 3 1 2).guardField = 3 ∧ (useOf (.vadd 3 3 1 2)).passes ready 3 = false ∧
    Instr.nop.accepts (after ready [.hint 0 0 0]).cx.chain = true := by decide
/-- The granule of a byte of the workspace, poisoned. -/
def spoilt (a : Nat) : State := { ready with poison := [granule (quadLocal 0 + a)] }
theorem wit_checks : (Instr.add 7 3 1 2).accepts (after ready [.imm 1]).cx.chain = false ∧
    ((Instr.add 1 3 1 2).accepts (spoilt 0x1200).cx.chain = true ∧ (Instr.add 1 3 1 2).guardField = 1 ∧
      (spoilt 0x1200).regPoison (guardReg 1) = some (quadLocal 0 + 0x1204)) ∧
    ((spoilt 8).regPoison (guardReg 9) = none ∧ (useOf (.add 9 3 1 2)).passes (spoilt 8) 9 = true ∧
      (spoilt 8).readPoison (.add 9 3 1 2) = some (quadLocal 0 + 8)) := by decide

theorem wit_branches : (∀ i ∈ ([.br 9 0x200000, .call 9 1, .loop 9 9 0x3FF, .yield 9, .exit 9] : List Instr), Takes i 9 .scalar ready) ∧
    Takes (.jmp 0x3FFFFE) 7 .scalar ready := ⟨takes_all (by decide), takes_of (by decide)⟩
theorem wit_register_jumps : ∀ s ∈ [regs ready [(1, 0x3FF)], regs ready [(1, 0x4000)], regs handler [(1, 0x400)], regs ready [(1, 0x400)]],
    ∀ i ∈ ([.jmpr 7 1, .callr 7 1, .ret 7 1, .jseg 7 1] : List Instr), Takes i 7 .scalar s :=
  fun s hs => takes_all (by revert s; decide)
theorem wit_jump_targets : mayJump (regs ready [(1, 0x3FF)]) ((regs ready [(1, 0x3FF)]).getS 1) ∧
    ((regs ready [(1, 0x4000)]).getS 1).toNat ≥ 2 ^ 14 ∧
    ((regs handler [(1, 0x400)]).priv = true ∧ ((regs handler [(1, 0x400)]).getS 1).toNat / 1024 ≠ 0) ∧
    (((regs ready [(1, 0x400)]).getS 1).toNat < 2 ^ 14 ∧ (regs ready [(1, 0x400)]).priv = false ∧
      ¬mayJump (regs ready [(1, 0x400)]) ((regs ready [(1, 0x400)]).getS 1)) ∧
    Takes (.jseg 7 1) 7 .scalar (after (regs ready [(1, 0x400)]) [.onnr 5]) ∧ (after (regs ready [(1, 0x400)]) [.onnr 5]).onnr.isSome = true := by
  refine ⟨?_, by decide, by decide, ⟨by decide, by decide, ?_⟩, takes_of (by decide), by decide⟩ <;> unfold mayJump <;> decide

/-- An entry of the wait-and-wake table that context 0 of core 0 registered for a word. -/
def waiting (latch : Bool) : WaitEntry :=
  { latch := latch, mode := 0, va := 0x7FFFFFE80000, target := 0, vf := 0, waiter := .ctx 0 0, hoop := none, loc := true, quad := 0,
    asked := 0x7FFFFFE80000 }
/-- With s1 the local-window address of a word that no workspace of core 0 holds, and s2 a value. -/
def near : State := regs ready [(1, 0x7FFFFFE80000), (2, 7)]
/-- The same in a trap handler. -/
def nearHandler : State := regs handler [(1, 0x7FFFFFE80000), (2, 7)]
/-- The same with an entry for the word in the wait-and-wake table. -/
def watched (latch : Bool) : State := near.modHub (fun h => { h with waits := [waiting latch] })

theorem wit_parks : ∀ i ∈ ([.parkNbS 9 63, .parkNbV 9 31, .recvPark 9 3, .parkWatch 9 1, .parkGe 9 1 2] : List Instr),
    ∀ s ∈ [near, watched false, watched true], Takes i 9 .scalar s :=
  fun i hi s hs => takes_of (by revert i s; decide)
theorem wit_park_watch : near.entryOf 0 0 (near.getS 1).toNat = none ∧
    (watched false).entryOf 0 0 ((watched false).getS 1).toNat = some (waiting false) ∧ (waiting false).latch = false ∧
    (watched true).entryOf 0 0 ((watched true).getS 1).toNat = some (waiting true) ∧ (waiting true).latch = true := by decide
theorem wit_park_ge : (∃ u ps, near.xlate near.me accR.config [((near.getS 1).toNat, 8)] = (u, ⟨ps, none, false⟩) ∧ ps ≠ [] ∧
      ∀ p ∈ ps, near.poisonIn near.cur.core near.cur.ctx (p.pa, 8) = none) ∧
    (near.getS 1).toNat % 8 = 0 ∧ near.choices = [] ∧ near.cx.ldas = [] ∧ (regs ready [(1, 4)] |>.getS 1).toNat % 8 ≠ 0 :=
  ⟨⟨_, _, (reaches_of (i := .nop) (by decide +kernel)).found, by decide +kernel⟩, by decide⟩
theorem wit_exit : Takes (.exit 7) 7 .scalar ready ∧ Quiet ready ∧ ready.cx.pend = [] ∧ ready.priv = false ∧ ready.cx.st = .ready ∧
    ready.cx.prior ≠ .away := ⟨takes_of (by decide), quiet_of (by decide), by decide⟩

theorem wit_vector : ∀ i ∈ ([.vadd 9 3 1 2, .vsub 9 3 1 2, .vmul 9 3 1 2, .vmad 9 3 1 2, .vand 9 3 1 2, .vor 9 3 1 2, .vxor 9 3 1 2,
    .vshl 9 3 1 2, .vshr 9 3 1 2, .vsar 9 3 1 2, .vrot 9 3 1 2, .vmin 9 3 1 2 0, .vmax 9 3 1 2 1, .vabs 9 3 1, .vshuf 9 3 1 2,
    .vbcast 9 1 3, .vlane 9 31, .vcmp 9 1 1 2 10] : List Instr), Takes i 9 .lanes ready := takes_all (by decide)
theorem wit_vsel_and_reductions : ∀ i ∈ ([.vsel 3 3 1 2, .vredAdd 3 9 4, .vredAnd 3 9 4, .vredOr 3 9 4, .vredXor 3 9 4, .vredMin 3 9 4 0,
    .vredMax 3 9 4 1, .vfredAdd 3 9 4, .vfredMin 3 9 4, .vfredMax 3 9 4] : List Instr), Takes i 3 .own ready := takes_all (by decide)
theorem wit_vector_float : ∀ i ∈ ([.vfadd 9 3 1 2, .vfsub 9 3 1 2, .vfmul 9 3 1 2, .vfma 9 3 1 2, .vfms 9 3 1 2, .vfnma 9 3 1 2,
    .vfmin 9 3 1 2, .vfmax 9 3 1 2, .vfrcp 9 3 1, .vfrsq 9 3 1, .vfsqrt 9 3 1, .vfexp2 9 3 1, .vflog2 9 3 1, .vcvtX2f 9 3 1 1,
    .vcvtF2i 9 3 1, .vcvtF2u 9 3 1, .vcvtI2f 9 3 1, .vcvtU2f 9 3 1, .vfrnd 9 3 1, .vfabs 9 3 1, .vfneg 9 3 1, .vfclass 9 3 1,
    .vunpk 9 3 1 0x23 3, .vcvtF2x 9 3 1 1, .vpack 9 3 1 0x23 3, .vfcmp 9 1 1 2 5] : List Instr), Takes i 9 .lanes ready :=
  takes_all (by decide)
theorem wit_vpack : (Instr.vpack 9 3 1 0x23 3).selectorOk = true := by decide
theorem wit_scalar_float : ∀ i ∈ ([.fadd 9 3 1 2, .fsub 9 3 1 2, .fmul 9 3 1 2, .ffma 9 3 1 2, .fmin 9 3 1 2, .fmax 9 3 1 2,
    .fcvtX2f 9 3 1 1, .fcvtI2f 9 3 1, .fcvtU2f 9 3 1, .fcvtF2i 9 3 1, .fcvtF2u 9 3 1, .fcvtF2x 9 3 1 1] : List Instr),
    Takes i 9 .scalar ready := takes_all (by decide)
theorem wit_float_stochastic : Takes (.fcvtF2x 9 3 1 0x23) 9 .scalar (after ready [.mod 5 0 0]) := takes_of (by decide)
-- A word of each class of VFCLASS, in the order of its bits.
theorem wit_classes : magF 0xFF800000 = 0x7F800000 ∧ (0x00800000 ≤ magF 0x80800000 ∧ magF 0xFF7FFFFF < 0x7F800000) ∧
    (0 < magF 0x80000001 ∧ magF 0x807FFFFF < 0x00800000) ∧ magF 0x80000000 = 0 ∧ magF 0 = 0 ∧
    (0 < magF 1 ∧ magF 0x007FFFFF < 0x00800000) ∧ (0x00800000 ≤ magF 0x00800000 ∧ magF 0x7F7FFFFF < 0x7F800000) ∧
    magF 0x7F800000 = 0x7F800000 ∧ isSignalling 0x7F800001 ∧ isNaN 0x7FC00000 ∧ ¬isSignalling 0x7FC00000 ∧ ¬isNaN 0x7F800000 := by
  unfold magF isSignalling isNaN magF; decide
theorem wit_float_compares : ccFloat 0 = true ∧ ccFloat 5 = true ∧ Takes (.fcmp 3 1 2 1 2 5) 3 .own ready ∧ Takes (.fcmp 7 1 2 1 2 0) 7 .own ready ∧
    (conditionF 0 ((ready.getS 1).extractLsb' 0 32) ((ready.getS 2).extractLsb' 0 32) ∧ ready.holds 7 = true) ∧
    ¬conditionF 2 0x3F800000 0x3F800000 ∧ invalidF 2 0x7FC00000 0 ∧ invalidF 0 0x7F800001 0 ∧ ¬invalidF 0 0x7FC00000 0 :=
  ⟨by decide, by decide, takes_of (by decide), takes_of (by decide), by
    refine ⟨⟨?_, by decide⟩, ?_, ?_, ?_, ?_⟩ <;> simp only [conditionF, invalidF, isSignalling, isNaN, rankF, magF] <;> decide⟩

theorem wit_rounding : ∃ v top : ℚ, valueOf (.fin true 3 0) = some v ∧ valueOf (decodeNum fp32 fp32.maxF) = some top ∧ |v| ≤ top ∧
    fp32.sign.isSome = true := by
  have h : decodeNum fp32 fp32.maxF = .fin false 16777215 104 := by decide
  exact ⟨_, _, rfl, by rw [h]; rfl, by norm_num, by decide⟩
theorem wit_rounding_binary8 : ∃ f, fmtBinary8 f = true ∧ ∃ v top : ℚ, valueOf (.fin false 17 0) = some v ∧
    valueOf (decodeNum (b8fmt f) (b8fmt f).maxF) = some top ∧ |v| ≤ top := by
  have h : decodeNum (b8fmt 0x23) (b8fmt 0x23).maxF = .fin false 6 29 := by decide
  exact ⟨0x23, by decide, _, _, rfl, by rw [h]; rfl, by norm_num⟩
theorem wit_float_arithmetic : (∃ a : ℚ, valueOf (num32 0x3F800000) = some a) ∧ (1 ≤ 4 ∧ 4 ≤ 4) ∧ isNaN 0x7FC00000 ∧
    ¬(isSignalling 0x7FC00000 ∨ isSignalling 0x3F800000) ∧ isSignalling 0x7F800001 ∧ magF 0x80000000 = 0 ∧ magF 0xFF800000 = 0x7F800000 := by
  have h : num32 0x3F800000 = .fin false 0x800000 (-23) := by decide
  refine ⟨⟨_, by rw [h]; rfl⟩, ?_⟩
  unfold isNaN isSignalling magF; decide

/-- VF 0's translation: the first GiB of virtual memory lies on the first GiB of HBM, readable, writable and executable, in
transit where the mark is set. -/
def mapped (transit : Bool) : State :=
  let s := ready.modVf 0 (fun v => { v with record := { v.record with root := 0x8000000000001000 } })
  ((s.poke 0x1000 8 0x100000).poke 0x100000 8 0x8000000000002000).poke 0x2000 8
    (0x9C00000000000000 + (if transit then 0x2000000000000000 else 0))
/-- With s1 a page of HBM. -/
def far (transit : Bool) : State := regs (mapped transit) [(1, 0x10000), (2, 7)]
/-- Accesses of the issuing context in flight. -/
def flying : State := near.modCx (fun x => { x with stores := [⟨.plain, 0, 0, false, [], 0, []⟩] })
/-- The bytes of the word near, poisoned. -/
def spoiltNear : State := { near with poison := [granule (quadLocal 0 + 0x80000)] }
/-- With P1 naming lanes 0 and 31. -/
def two (s : State) : State := s.setP 1 0x80000001

theorem wit_ld : near.cx.ldas = [] ∧ Takes (.ld 7 4 1 6 0) 7 .scalar near ∧ ∃ u ps, Reaches (.ld 7 4 1 6 0) accR.config
      (splitPages (near.getS 1 + immediate near (0 : BitVec 7) * BitVec.ofNat 64 8).toNat 8) near u ps ∧
    near.partsPoison near.cur.core near.cur.ctx ps = none ∧ ∀ p ∈ ps, isCfg p.pa = false :=
  ⟨by decide +kernel, takes_of (by decide +kernel), _, _, reaches_of (by decide +kernel), by decide +kernel, by decide +kernel⟩
theorem wit_ld_across_pages : splitPages (0x7FFFFFE80FFC) 8 = [(0x7FFFFFE80FFC, 4), (0x7FFFFFE81000, 4)] ∧
    ∃ u ps, Reaches (.ld 7 4 1 6 0) accR.config (splitPages 0x7FFFFFE80FFC 8) near u ps :=
  ⟨by decide +kernel, _, _, reaches_of (by decide +kernel)⟩
theorem wit_ld_poison : Takes (.ld 7 4 1 6 0) 7 .scalar spoiltNear ∧ ∃ u ps, Reaches (.ld 7 4 1 6 0) accR.config
      (splitPages (spoiltNear.getS 1).toNat 8) spoiltNear u ps ∧
    spoiltNear.partsPoison spoiltNear.cur.core spoiltNear.cur.ctx ps = some 0x7FFFFFE80000 :=
  ⟨⟨by decide +kernel, by decide +kernel, .inl rfl, by decide +kernel, by decide +kernel⟩, _, _, reaches_of (by decide +kernel), by decide +kernel⟩
theorem wit_ldl : ∀ s ∈ [regs ready [(1, 0x1FFFF8)], regs ready [(1, 0x1FFFF9)], regs ready [(1, 0x1FFFF4)]], Takes (.ldl 7 4 1 0 1) 7 .scalar s ∧
    Takes (.stl 7 4 1 0 1) 7 .scalar s ∧ s.discretion (.ldl 7 4 1 0 1) = 0 :=
  fun s hs => ⟨takes_of (by revert s; decide +kernel), takes_of (by revert s; decide +kernel), by revert s; decide +kernel⟩
theorem wit_ldl_poison : Takes (.ldl 7 4 1 0 1) 7 .scalar (regs spoiltNear [(1, 0x80000)]) ∧
    (regs spoiltNear [(1, 0x80000)]).partsPoison 0 0 [⟨quadLocal 0 + 0x80000, 0x80000, 8, ⟨1, false, false, 0, 0⟩⟩] = some 0x80000 :=
  ⟨⟨by decide +kernel, by decide +kernel, .inl rfl, by decide +kernel, by decide +kernel⟩, by decide +kernel⟩
theorem wit_st : Takes (.st 7 2 1 3 0) 7 .scalar near ∧ ∃ u ps, Reaches (.st 7 2 1 3 0) accW.config (splitPages (near.getS 1).toNat 8) near u ps ∧
    near.protectedIn ps = none ∧ near.cfgFault ps 7 = none :=
  ⟨takes_of (by decide +kernel), _, _, reaches_of (by decide +kernel), by decide +kernel, by decide +kernel⟩
theorem wit_stl : near.protectedIn [⟨quadLocal 0 + 0x1FFFF8, 0x1FFFF8, 8, ⟨1, false, false, 0, 0⟩⟩] = none ∧
    near.cfgFault [⟨quadLocal 0 + 0x1FFFF8, 0x1FFFF8, 8, ⟨1, false, false, 0, 0⟩⟩] 7 = none := by decide +kernel
theorem wit_accepted : near.cx.ldas = [] ∧ (∀ e ∈ (near.core near.cur.core).journal, e.2.state = .pending → e.2.owner ≠ near.cur.ctx) ∧
    NoHostWatch near ∧ near.cx.stores = [] ∧ isHbm 0x10000 = true ∧ isHost 0x8000000000000 = true ∧ isCfg 0x0010200000000 = true ∧
    isLocal (quadLocal 383 + 0x1FFFFF) = true := ⟨by decide +kernel, by decide +kernel, noHostWatch_of (by decide +kernel), by decide +kernel⟩

/-- As Contiguous, with a test of the lanes. -/
def contiguous (i : Instr) (g : BitVec 4) (acc : Acc) (a : BitVec 6) (o : BitVec 7) (f : List Lane → Bool) (s : State) : Bool :=
  match vectorTarget s a o with
  | some (t, va, at0) =>
    let r := t.xlateLanes false acc ((s.guardLanes g).map (fun j => (j, (va + j * fmtBytes at0.fmt) % 2 ^ 64)))
    r.2.fault.isNone && !r.2.tr && r.2.lanes.all (fun l => l.part.attr.fmt == at0.fmt && l.part.attr.g == at0.g && l.part.attr.sh == at0.sh) &&
      s.discretion i == 0 && f r.2.lanes && !r.1.askBusy (tileOf r.1.cur.core) (laneRuns r.2.lanes) 0
  | none => false

theorem contiguous_of {i : Instr} {g : BitVec 4} {acc : Acc} {a : BitVec 6} {o : BitVec 7} {f : List Lane → Bool} {s : State}
    (h : contiguous i g acc a o f s = true) :
    ∃ u ls, Contiguous i g acc a o s u ls ∧ f ls = true ∧ Served u (laneRuns ls) 0 := by
  unfold contiguous at h
  split at h
  · rename_i t va at0 e
    simp only [Bool.and_eq_true, Option.isNone_iff_eq_none, beq_iff_eq, Bool.not_eq_true', List.all_eq_true] at h
    refine ⟨_, _, ⟨⟨t, va, at0, e, Prod.ext rfl ?_, fun l hl => ?_⟩, h.1.1.2⟩, h.1.2, h.2⟩
    · rcases k : (t.xlateLanes false acc ((s.guardLanes g).map (fun j => (j, (va + j * fmtBytes at0.fmt) % 2 ^ 64)))).2 with ⟨ls, p, q⟩
      rw [k] at h
      simp only at h
      simp [h.1.1.1.1.1, h.1.1.1.1.2]
    · obtain ⟨⟨x, y⟩, z⟩ := h.1.1.1.2 l hl
      exact ⟨x, y, z⟩
  · cases h

/-- As Scattered, with a test of the lanes. -/
def scattered (i : Instr) (acc : Acc) (places : List (Nat × Nat)) (f : List Lane → Bool) (s : State) : Bool :=
  let r := s.xlateLanes true acc places
  r.2.fault.isNone && !r.2.tr && s.discretion i == 0 && f r.2.lanes && !r.1.askBusy (tileOf r.1.cur.core) (laneRuns r.2.lanes) 0

theorem scattered_of {i : Instr} {acc : Acc} {places : List (Nat × Nat)} {f : List Lane → Bool} {s : State}
    (h : scattered i acc places f s = true) :
    ∃ u ls, Scattered i acc places s u ls ∧ f ls = true ∧ Served u (laneRuns ls) 0 := by
  simp only [scattered, Bool.and_eq_true, Option.isNone_iff_eq_none, beq_iff_eq, Bool.not_eq_true'] at h
  refine ⟨_, _, ⟨Prod.ext rfl ?_, h.1.1.2⟩, h.1.2, h.2⟩
  rcases k : (s.xlateLanes true acc places).2 with ⟨ls, p, q⟩
  rw [k] at h
  simp only at h
  simp [h.1.1.1.1, h.1.1.1.2]

/-- No lane in the configuration page or in protected bytes. -/
def plainLanes (s : State) (ls : List Lane) : Bool :=
  ls.length == 2 && ls.all (fun l => !isCfg l.part.pa) && (s.protectedIn (ls.map (fun l => l.part))).isNone

theorem wit_lda : Takes (.lda 7 4 1 3 1 0) 7 .scalar near ∧ near.arrival 3 ≠ 0xFFFF ∧ (near.setArrival 3 0xFFFF).arrival 3 = 0xFFFF ∧
    Takes (.lda 7 4 1 3 1 0) 7 .scalar (near.setArrival 3 0xFFFF) ∧ ∃ u ps, Reaches (.lda 7 4 1 3 1 0) accR.config
      (splitPages (near.getS 1).toNat 8) near u ps :=
  ⟨takes_of (by decide +kernel), by decide +kernel, by decide +kernel, takes_of (by decide +kernel), _, _, reaches_of (by decide +kernel)⟩
theorem wit_vector_memory : (∀ i ∈ ([.vlda 1 4 1 5 0, .vld 1 4 1 0, .vlds 1 4 1 2, .vldx 1 4 1 2, .vst 1 4 1 0, .vsts 1 4 1 2,
    .vstx 1 4 1 2] : List Instr), Takes i 1 .lanes (two near)) ∧ ((two near).cx.ldas = [] ∧ (two near).cx.ops = []) ∧ (two near).poison = [] ∧ (two near).arrival 3 ≠ 0xFFFF ∧
    (∃ u ls, Contiguous (.vlda 1 4 1 5 0) 1 accR.config 1 0 (two near) u ls ∧ plainLanes near ls = true ∧ Served u (laneRuns ls) 0) ∧
    (∃ u ls, Contiguous (.vld 1 4 1 0) 1 accR.config 1 0 (two near) u ls ∧ plainLanes near ls = true ∧ Served u (laneRuns ls) 0) ∧
    (∃ u ls, Contiguous (.vst 1 4 1 0) 1 accW.config 1 0 (two near) u ls ∧ plainLanes near ls = true ∧ Served u (laneRuns ls) 0) :=
  ⟨takes_all (by decide +kernel), by decide +kernel, by decide +kernel, by decide +kernel, contiguous_of (by decide +kernel), contiguous_of (by decide +kernel),
    contiguous_of (by decide +kernel)⟩
theorem wit_scattered :
    (∃ u ls, Scattered (.vlds 1 4 1 0) accR.config (((two near).guardLanes 1).map (fun j => (j,
      ((two near).getS 1 + BitVec.ofNat 64 j * (two near).getS 0).toNat))) (two near) u ls ∧ plainLanes near ls = true ∧ Served u (laneRuns ls) 0) ∧
    (∃ u ls, Scattered (.vsts 1 4 1 0) accW.config (((two near).guardLanes 1).map (fun j => (j,
      ((two near).getS 1 + BitVec.ofNat 64 j * (two near).getS 0).toNat))) (two near) u ls ∧ plainLanes near ls = true ∧ Served u (laneRuns ls) 0) ∧
    (∃ u ls, Scattered (.vldx 1 4 1 2) accR.config (((two near).guardLanes 1).map (fun j => (j,
      ((two near).getS 1 + ((two near).getV 2 j).signExtend 64).toNat))) (two near) u ls ∧ plainLanes near ls = true ∧ Served u (laneRuns ls) 0) ∧
    (∃ u ls, Scattered (.vstx 1 4 1 2) accW.config (((two near).guardLanes 1).map (fun j => (j,
      ((two near).getS 1 + ((two near).getV 2 j).signExtend 64).toNat))) (two near) u ls ∧ plainLanes near ls = true ∧ Served u (laneRuns ls) 0) :=
  ⟨scattered_of (by decide +kernel), scattered_of (by decide +kernel), scattered_of (by decide +kernel), scattered_of (by decide +kernel)⟩

/-- With the first n journal entries refused. -/
def posted (n : Nat) : State :=
  near.modCore 0 (fun c => { c with journal := (List.range n).map (fun j => (j, { JEntry.free with state := .refused })) })
theorem wit_pst : ∀ n ∈ [0, 31, 32], Takes (.pst 7 2 1 1) 7 .scalar (posted n) ∧ Quiet (posted n) ∧ (posted n).cfgFault [] 7 = none ∧
    ∃ u ps, Reaches (.pst 7 2 1 1) accW.config.global (splitPages ((posted n).getS 1).toNat 8) (posted n) u ps ∧ (posted n).cfgFault ps 7 = none := by
  intro n hn
  simp only [List.mem_cons, List.not_mem_nil, or_false] at hn
  rcases hn with rfl | rfl | rfl <;>
    exact ⟨takes_of (by decide +kernel), ⟨by decide +kernel, by decide +kernel, by decide +kernel, by decide +kernel, by decide +kernel⟩, rfl, _, _,
      reaches_of (by decide +kernel), by decide +kernel⟩
theorem wit_pst_entries : (∀ j < 32, ((posted 32).core 0 |>.entry j).state ≠ .free) ∧ ((posted 31).core 0 |>.entry 31).state = .free ∧
    (∀ m < 31, ((posted 31).core 0 |>.entry m).state ≠ .free) ∧ ((posted 0).core 0 |>.entry 0).state = .free := by decide +kernel

/-- With slot 1 of core 0 FILLING. -/
def filling : State := (far false).modSlot 0 1 (fun x => { x with state := .filling })
theorem wit_lines_and_slots : Takes (.pref 7 1) 7 .scalar near ∧ Takes (.flush 7 1) 7 .scalar (far false) ∧
    (∀ n ∈ ([0, 1, 2] : List (BitVec 4)), Takes (.cfetch 7 1 n) 7 .scalar filling) ∧ filling.occupied 0 0 = true ∧ filling.occupied 0 1 = false ∧
    ((filling.core 0).slot 1).state = .filling ∧ filling.occupied 0 2 = false ∧ ((filling.core 0).slot 2).state ≠ .filling ∧
    (filling.getS 1).toNat % 4096 = 0 :=
  ⟨takes_of (by decide +kernel), takes_of (by decide +kernel), fun n hn => takes_of (by revert n; decide +kernel), by decide +kernel⟩
theorem wit_line_reach : (∃ u p, Reaches (.flush 7 1) accR [((far false).getS 1 |>.toNat, 1)] (far false) u [p] ∧ isHbm p.pa = true) ∧
    ∃ u p, Reaches (.cfetch 7 1 2) accX [((filling.getS 1).toNat, 4096)] filling u [p] :=
  ⟨⟨_, ⟨0x10000, 0x10000, 1, ⟨0, false, false, 0, 0⟩⟩, reaches_of (by decide +kernel), by decide +kernel⟩,
    ⟨_, ⟨0x10000, 0x10000, 4096, ⟨0, false, false, 0, 0⟩⟩, reaches_of (by decide +kernel)⟩⟩

/-- The page of s1 under a culture of slot 7, loaded, whose action for a stale line refuses every event (DACT 8). -/
def refusing : State := (far false).modHub (fun h => { h with
  ranges := [(0, ⟨0x8070000000010000, 0x10000, some 0, none, []⟩)],
  cultures := [(7, { state := .loaded, owner := 0, ns := 1, name := 0, states := [], actions := (List.range 16).map (fun j => (j, 0x00080001)) })] })
/-- The part of a page that the identity of `mapped` gives. -/
def farPart (n : Nat) : Part := ⟨0x10000, 0x10000, n, ⟨0, false, false, 0, 0⟩⟩
/-- The part of the word near. -/
def nearPart (n : Nat) : Part := ⟨quadLocal 0 + 0x80000, 0x7FFFFFE80000, n, ⟨1, false, false, 0, 0⟩⟩

theorem wit_atomics : ∀ s ∈ [near, far false, refusing], ∀ i ∈ ([.amo 1 7 4 1 2 0, .amo 1 7 4 1 2 9, .red 1 7 1 2 7, .tladd 7 5 1 2, .pst 7 2 1 1] : List Instr),
    Takes i 7 .scalar s := fun s hs i hi => takes_of (by revert s i; decide +kernel)
theorem wit_atomic_home : (∀ s ∈ [far false, refusing], (s.getS 1).toNat % 8 = 0 ∧ s.poison = [] ∧ isCfg (farPart 8).pa = false ∧ s.protectedIn [farPart 8] = none) ∧
    Quiet (far false) ∧ Quiet refusing ∧ (far false).refuses 0x10000 3 = false ∧ refusing.refuses 0x10000 3 = true ∧ refusing.refuses 0x10000 4 = true ∧
    (∃ u, Reaches (.amo 1 7 4 1 2 0) accRW.config [(((far false).getS 1).toNat, 8)] (far false) u [farPart 8]) ∧
    (∃ u, Reaches (.amo 1 7 4 1 2 0) accRW.config [((refusing.getS 1).toNat, 8)] refusing u [farPart 8]) ∧
    (∃ u, Reaches (.red 1 7 1 2 7) accRW.config [((refusing.getS 1).toNat, 8)] refusing u [farPart 8]) ∧
    ∃ u, Reaches (.tladd 7 5 1 2) accRW.config.global [(((far false).getS 1).toNat, 8)] (far false) u [farPart 8] :=
  ⟨by decide +kernel, quiet_of (by decide +kernel), quiet_of (by decide +kernel), by decide +kernel, by decide +kernel, by decide +kernel,
    ⟨_, reaches_of (by decide +kernel)⟩, ⟨_, reaches_of (by decide +kernel)⟩, ⟨_, reaches_of (by decide +kernel)⟩, ⟨_, reaches_of (by decide +kernel)⟩⟩
theorem wit_atomic_write : NoHostWatch near ∧ ∀ j < 8, near.isReserved (quadLocal 0 + 0x80000 + j) = false :=
  ⟨noHostWatch_of (by decide +kernel), by decide +kernel⟩

theorem wit_release : (∀ s ∈ [near, flying], Takes (.relst 7 2 1 5 1) 7 .scalar s ∧ Takes (.fence 7 5) 7 .scalar s) ∧ Takes (.acqld 7 4 1 0 1) 7 .scalar near ∧
    near.unperformed false = false ∧ near.unperformed true = false ∧ flying.unperformed false = true ∧ flying.unperformed true = true ∧
    near.protectedIn [nearPart 8] = none ∧ near.cfgFault [nearPart 8] 7 = none ∧
    (∃ u, Reaches (.relst 7 2 1 5 1) accW.config (splitPages (near.getS 1).toNat 8) near u [nearPart 8]) ∧
    (∃ u, Reaches (.relst 7 2 1 5 1) accW.config (splitPages (flying.getS 1).toNat 8) flying u [nearPart 8]) ∧
    ∃ u, Reaches (.acqld 7 4 1 0 1) accR.config (splitPages (near.getS 1).toNat 8) near u [nearPart 8] :=
  ⟨fun s hs => ⟨takes_of (by revert s; decide +kernel), takes_of (by revert s; decide +kernel)⟩, takes_of (by decide +kernel), by decide +kernel, by decide +kernel, by decide +kernel, by decide +kernel,
    by decide +kernel, by decide +kernel, ⟨_, reaches_of (by decide +kernel)⟩, ⟨_, reaches_of (by decide +kernel)⟩, ⟨_, reaches_of (by decide +kernel)⟩⟩

/-- With s1 an address of no page: 2^56, and 4. -/
def lost (a : W64) : State := regs ready [(1, a)]
theorem wit_access_traps : ∀ s ∈ [lost 0x100000000000000, lost 4], ∀ i ∈ ([.ld 7 4 1 6 0, .st 7 4 1 3 0, .lda 7 4 1 3 1 0, .flush 7 1, .pst 7 4 1 1,
    .stl 7 4 1 2 1, .cfetch 7 1 1, .amo 1 7 4 1 2 0, .red 1 7 1 2 0, .relst 7 4 1 5 1, .acqld 7 4 1 0 1] : List Instr),
    Takes i 7 .scalar s ∧ s.discretion i = 0 :=
  fun s hs i hi => ⟨takes_of (by revert s i; decide +kernel), by revert s i; decide +kernel⟩
theorem wit_access_faults : ((lost 4).getS 1).toNat % 8 ≠ 0 ∧ ((lost 4).getS 1 + (lost 4).getS 2).toNat % 8 ≠ 0 ∧
    (∀ a ∈ ([accR.config, accW.config, accR, accW.config.global, accX, accRW.config] : List Acc),
      ((lost 0x100000000000000).xlate (lost 0x100000000000000).me a [(0x100000000000000, 8)]).2.fault = some (0x10, 0x100000000000000)) ∧
    (∀ a ∈ ([accR.config, accW.config, accR, accW.config.global, accX, accRW.config] : List Acc),
      let x := ((far true).xlate (far true).me a [(0x10000, 8)]).2
      x.fault = none ∧ x.tr = true) ∧ Takes (.ld 7 4 1 6 0) 7 .scalar (far true) :=
  ⟨by decide +kernel, by decide +kernel, by decide +kernel, by decide +kernel, takes_of (by decide +kernel)⟩

/-- With the counter near at 9, and with an arrival counted. -/
def counted : State := (near.poke (quadLocal 0 + 0x80000) 8 9).setArrival 3 1
theorem wit_timelines : (∀ s ∈ [near, counted], Takes (.waitge 7 0 1 2) 7 .scalar s ∧ Takes (.waita 7 3) 7 .scalar s) ∧ near.arrival 3 = 0 ∧ counted.arrival 3 ≠ 0 ∧
    counted.cx.ldas = [] ∧ counted.poison = [] ∧ isCfg (nearPart 8).pa = false ∧ readBy near [nearPart 8] < (near.getS 2).toNat ∧
    ¬readBy counted [nearPart 8] < (counted.getS 2).toNat ∧ near.refuses (nearPart 8).pa 3 = false ∧
    (∃ u, Reaches (.waitge 7 0 1 2) accR.config.global [((near.getS 1).toNat, 8)] near u [nearPart 8]) ∧
    (∃ u, Reaches (.waitge 7 0 1 2) accR.config.global [((counted.getS 1).toNat, 8)] counted u [nearPart 8]) ∧
    ∃ u, Reaches (.tladd 7 0 1 2) accRW.config.global [((near.getS 1).toNat, 8)] near u [nearPart 8] :=
  ⟨fun s hs => ⟨takes_of (by revert s; decide +kernel), takes_of (by revert s; decide +kernel)⟩, by decide +kernel, by decide +kernel, by decide +kernel,
    by decide +kernel, by decide +kernel, by decide +kernel, by decide +kernel, by decide +kernel, ⟨_, reaches_of (by decide +kernel)⟩,
    ⟨_, reaches_of (by decide +kernel)⟩, ⟨_, reaches_of (by decide +kernel)⟩⟩

/-- A machine whose core 0 belongs to hoop 0, which takes two cores by two, two contexts each. -/
def grouped (s : State) : State :=
  (s.modCore 0 (fun c => { c with hoop := some 0, hoopO := 0, hoopS := 0x20202 }))
/-- Near, with a sub-hoop descriptor of two cores by two in s3 and an expectation of 2^47 - 1 bytes in s4. -/
def joined : State := grouped (regs near [(3, 0x4800), (4, 0x7FFFFFFFFFFF)])
theorem wit_barriers : Takes (.bara 7 4 1 3) 7 .scalar joined ∧ (joined.getS 1).toNat % 16 = 0 ∧ isLocal (nearPart 16).pa = true ∧ joined.poison = [] ∧
    subHoopOk (joined.core 0) (joined.getS 3) = true ∧ inSubHoop (joined.core 0) 0 (joined.getS 3) = true ∧ (joined.getS 4).toNat < 2 ^ 47 ∧
    joined.protectedIn [nearPart 16] = none ∧ Quiet joined ∧ (∀ j < 16, joined.isReserved ((nearPart 16).pa + j) = false) ∧ NoHostWatch joined ∧
    (∀ b ∈ ([0, 2] : List (BitVec 6)), Takes (.barw 7 1 b) 7 .scalar joined) ∧ joined.cx.ldas = [] ∧
    readBy joined [nearPart 16] / 2 ^ 48 % 2 ^ 16 = (joined.getS 0).toNat % 2 ^ 16 ∧ readBy joined [nearPart 16] / 2 ^ 48 % 2 ^ 16 ≠ (joined.getS 2).toNat % 2 ^ 16 ∧
    (∃ u, Reaches (.bara 7 4 1 3) accRW.global [((joined.getS 1).toNat, 16)] joined u [nearPart 16]) ∧
    ∃ u, Reaches (.barw 7 1 2) accR.global [((joined.getS 1).toNat, 16)] joined u [nearPart 16] :=
  ⟨takes_of (by decide +kernel), by decide +kernel, by decide +kernel, by decide +kernel, by decide +kernel, by decide +kernel, by decide +kernel,
    by decide +kernel, quiet_of (by decide +kernel), by decide +kernel, noHostWatch_of (by decide +kernel),
    fun b hb => takes_of (by revert b; decide +kernel), by decide +kernel, by decide +kernel, by decide +kernel,
    ⟨_, reaches_of (by decide +kernel)⟩, ⟨_, reaches_of (by decide +kernel)⟩⟩
-- The arrival that completes a phase, and one that does not.
theorem wit_barrier_phase : (1 = 1 % 2 ^ 16 ∧ 1 % 2 ^ 16 ≠ 0 ∧ (joined.view ((nearPart 16).pa + 8) 8 + 2 ^ 64 - 0) % 2 ^ 64 = 0 ∧
    (joined.view (nearPart 16).pa 8 / 2 ^ 32 % 2 ^ 16 + 1) % 2 ^ 16 = 1) ∧ ¬(1 = 2 % 2 ^ 16) := by decide +kernel

/-- With room for n entries of the wait-and-wake table. -/
def roomy (n : Nat) (s : State) : State := s.modVf 0 (fun v => { v with record := { v.record with wwq := n } })
/-- Context 1 of core 0, PARKED on the word near, and its entry. -/
def sleeper (parked : Bool) : State :=
  (near.modHub (fun h => { h with waits := [{ waiting false with waiter := .ctx 0 1 }] })).modCtx 0 1 (fun x =>
    if parked then { x with st := .parked, park := .watch 0x7FFFFFE80000 } else x)
theorem wit_watches : (∀ s ∈ [roomy 0 near, roomy 1 near, roomy 1 (watched false)], (Takes (.watch 7 1 1 2) 7 .scalar s ∧ Takes (.wake 7 1) 7 .scalar s) ∧ s.poison = [] ∧
      ∃ u, Reaches (.watch 7 1 1 2) accR.config.global [((s.getS 1).toNat, 8)] s u [nearPart 8]) ∧
    (¬((roomy 0 near).hub.waits.filter (fun e => e.vf == (roomy 0 near).myVf)).length < ((roomy 0 near).vf 0).record.wwq) ∧
    ((roomy 1 near).hub.waits.filter (fun e => e.vf == (roomy 1 near).myVf)).length < ((roomy 1 near).vf 0).record.wwq ∧
    (∃ e ∈ (roomy 1 (watched false)).hub.waits, e.waiter = .ctx 0 0 ∧ e.hasKey ⟨0, localWin + localOff (nearPart 8).pa, true, localQuad (nearPart 8).pa⟩ = true) ∧
    (∀ e ∈ (roomy 0 near).hub.waits, ¬(e.waiter = .ctx 0 0)) ∧ (near.getS 1).toNat < 2 ^ 56 ∧ near.discretion (.wake 7 1) = 0 ∧ Quiet near := by
  refine ⟨fun s hs => ?_, by decide +kernel, by decide +kernel, ⟨waiting false, List.mem_singleton.mpr rfl, by decide +kernel⟩, by decide +kernel, by decide +kernel,
    by decide +kernel, quiet_of (by decide +kernel)⟩
  simp only [List.mem_cons, List.not_mem_nil, or_false] at hs
  rcases hs with rfl | rfl | rfl <;>
    exact ⟨⟨takes_of (by decide +kernel), takes_of (by decide +kernel)⟩, by decide +kernel, _, reaches_of (by decide +kernel)⟩
theorem wit_wakes : ∀ b ∈ [true, false], (sleeper b).parkedOn { waiting false with waiter := .ctx 0 1 } = b ∧
    { waiting false with waiter := .ctx 0 1 } ∈ (sleeper b).hub.waits ∧
    ({ waiting false with waiter := .ctx 0 1 } : WaitEntry).hasKey ⟨0, 0x7FFFFFE80000, true, 0⟩ = true := by decide +kernel
theorem wit_wakes_no_host : ∀ b, NoHostWatch (sleeper b) := by
  intro b e he t
  cases b <;> (have h : e = { waiting false with waiter := .ctx 0 1 } := List.mem_singleton.mp he; rw [h]; exact fun k => by cases k)

theorem wit_copies : (∀ i ∈ ([.cpset 7 1 7, .cpgo 7 5, .cppb 7 5 1, .cpq 7 4 1] : List Instr), Takes i 7 .scalar near) ∧ copyMayStart near.cx.shadow ∧
    (∀ m < 32, mapGet ((near.modCore 0 (fun c => { c with copies := (List.range 32).map (fun j =>
      (j, ⟨0, true, none, 0, 0, 0, Shadow.reset, 0, false, 0, false, [], false, false, false, 0⟩)) })).core 0).copies m ≠ none) ∧
    mapGet (near.core 0).copies 0 = none ∧ near.discretion (.cpgo 7 5) = 0 ∧ (near.getS 1).toNat % 64 = 0 ∧ near.cx.ldas = [] ∧ Quiet near ∧
    ∃ u ps, Reaches (.cppb 7 5 1) accR [((near.getS 1).toNat, 64)] near u ps ∧ readBy near ps / 2 ^ 448 % 2 ^ 64 = 0 ∧ ∀ p ∈ ps, isCfg p.pa = false := by
  refine ⟨takes_all (by decide), ?_, by decide +kernel, by decide, by decide, by decide, by decide, quiet_of (by decide), _, _,
    reaches_of (by decide +kernel), by decide +kernel, by decide +kernel⟩
  unfold copyMayStart
  decide
-- The ids of a copy in a slot and of none.
theorem wit_copy_queries : let s := near.setCopy 0 0 ⟨0, true, none, 0, 0, 0, Shadow.reset, 0, false, 0, false, [], false, false, false, 0⟩
    (∀ e ∈ (near.core 0).copies, BitVec.ofNat 64 (copyId e.2.serial 0 e.1) ≠ near.getS 1) ∧
    ((s.core 0).copies.find? (fun c => BitVec.ofNat 64 (copyId c.2.serial 0 c.1) == s.getS 0)).isSome = true := by decide +kernel

/-- Near, with presence bits 2 and 64, with s2 and s4 as sources. -/
def filled : State := (grouped near).setPresence (grouped near).ws 2 true
theorem wit_neighbours : Takes (.nput 7 2 1 1 0 0) 7 .scalar (grouped near) ∧ neighbour ((grouped near).core 0) 0 0 = none ∧
    neighbour ((grouped near).core 0) 0 1 = some 1 ∧ hoopN ((grouped near).core 0) ≤ 2 ∧ 1 < hoopN ((grouped near).core 0) ∧
    (let s := (grouped near).setPresence ((grouped near).wsOf 1 0) 2 true; Takes (.nput 7 2 1 1 0 0) 7 .scalar s ∧ s.presence (s.wsOf 1 0) 2 = true) ∧
    (grouped near).presence ((grouped near).wsOf 1 0) 2 = false ∧ (grouped near).reservedBit 1 0 2 = false ∧
    (grouped near).discretion (.nput 7 2 1 1 0 0) = 0 ∧ Quiet (grouped near) ∧ Takes (.ntake 7 3 2 0) 7 .scalar near ∧ Takes (.ntake 7 3 2 0) 7 .scalar filled ∧
    near.presence near.ws 2 = false ∧ filled.presence filled.ws 2 = true :=
  ⟨takes_of (by decide +kernel), by decide +kernel, by decide +kernel, by decide +kernel, by decide +kernel, ⟨takes_of (by decide +kernel), by decide +kernel⟩,
    by decide +kernel, by decide +kernel, by decide +kernel, quiet_of (by decide +kernel), takes_of (by decide +kernel), takes_of (by decide +kernel),
    by decide +kernel, by decide +kernel⟩

/-- A flit for any context, and one for context 5. -/
def flits (n : Nat) (tag : Nat) (s : State) : State := s.modChan 0 0 (fun c => { c with flits := (List.range n).map (fun _ => ⟨9, tag, 1, 4⟩) })
/-- A route to channel 0 of the hoop's first core, context 0, in s0; to a core outside it in s1. -/
def routed : State := grouped (regs ready [(1, 0x3F)])
theorem wit_channels : routeFault (routed.core 0) (routed.getS 1) = some 0x0C ∧ routeFault (routed.core 0) (routed.getS 0) = none ∧
    (∀ s ∈ [routed, flits 16 16 routed], ∀ i ∈ ([.send 7 0 2, .send 7 1 2, .recv 7 4 0] : List Instr), Takes i 7 .scalar s) ∧
    16 ≤ ((flits 16 16 routed).core 0 |>.chan 0).flits.length ∧ (routed.core 0 |>.chan 0).flits.length < 16 ∧ routed.discretion (.send 7 0 2) = 0 ∧
    Quiet routed ∧ ((routed.core 0).chan 0).openTo 0 = false ∧ (((flits 1 5 routed).core 0).chan 0).openTo 0 = false ∧
    (((flits 2 16 routed).core 0).chan 0).openTo 0 = true ∧ (((flits 2 16 routed).core 0).chan 0).flits = [⟨9, 16, 1, 4⟩, ⟨9, 16, 1, 4⟩] :=
  ⟨by decide, by decide, fun s hs i hi => takes_of (by revert s i; decide +kernel), by decide +kernel, by decide, by decide, quiet_of (by decide), by decide,
    by decide +kernel, by decide +kernel, by decide +kernel⟩

/-- A pipe record near, of 2^k elements, at HEAD 0 and TAIL t, and s1 its handle. -/
def piped (k t : Nat) : State :=
  ((((regs ready [(1, 0x80000)]).modQuad 0 (fun x => { x with part := some 0 })).poke (quadLocal 0 + 0x80000) 8 (t * 2 ^ 32)).poke (quadLocal 0 + 0x80008) 8
    (0x90000 + k * 2 ^ 24))
theorem wit_pipes : (∀ s ∈ [piped 0 0, piped 0 1], s.pipeRecord (s.getS 1) = some (quadLocal 0 + 0x80000) ∧ s.poison = [] ∧
      (∀ j < 8, s.isProtected (quadLocal 0 + 0x80000 + j) = false) ∧ pipeWordOk (s.view (quadLocal 0 + 0x80008) 8) = true ∧
      (∀ j < 8, s.isProtected (quadLocal 0 + 0x90000 + j) = false)) ∧
    (∀ s ∈ [piped 0 0, piped 0 1], ∀ i ∈ ([.pipeput 7 1 2, .pipeget 7 4 1] : List Instr), Takes i 7 .scalar s) ∧ Quiet (piped 0 0) ∧
    (piped 0 0).view (quadLocal 0 + 0x80000) 8 / 2 ^ 32 = 0 ∧ (piped 0 1).view (quadLocal 0 + 0x80000) 8 / 2 ^ 32 = 1 :=
  ⟨by decide +kernel, fun s hs i hi => takes_of (by revert s i; decide +kernel), quiet_of (by decide +kernel), by decide +kernel⟩

/-- A launch record: one core at the origin, one context. -/
def record0 : Launch :=
  { code := 0x10000, entry := 0, nctx := 1, flags := 0, ox := 0, oy := 0, w := 1, h := 1, args := 0, map := 0, done := 0x20000, vf := 0, queue := 0,
    tag := 5, packet := none, hoop := none }
/-- A hoop of that record. -/
def hoop0 (st : HoopState) : Hoop :=
  { state := st, record := record0, ox := 0, oy := 0, pushed := [], reserved := 0, frozen := false, slice := 1000, sliceEnd := 0, doneDue := false,
    dbg := false, frozenDbg := false, crossed := [], records := [] }
/-- A machine in which hoop 0 is x and holds core 0. -/
def holding (x : Hoop) (s : State) : State := (s.modHub (fun h => { h with hoops := [(0, x)] })).modCore 0 (fun c => { c with hoop := some 0 })
/-- Hoops that are free, full, frozen, and that hold one continuation. -/
def tasked (x : Hoop) : State := (holding x near).modSlot 0 0 (fun y => { y with state := .landed })
def full : Hoop := { hoop0 .running with reserved := 256 }
def frozen : Hoop := { hoop0 .running with frozen := true }
def waitingTask : Hoop := { hoop0 .running with pushed := [0] }
theorem wit_tasks : (∀ x ∈ [hoop0 .running, full, frozen, waitingTask], (tasked x).myHoop = some 0 ∧ (tasked x).hoop 0 = some x ∧ (tasked x).poison = []) ∧
    (∀ x ∈ [hoop0 .running, full, frozen, waitingTask], ∀ i ∈ ([.taskpush 7 4, .susp 7 1 4, .taskpop 7] : List Instr), Takes i 7 .scalar (tasked x)) ∧
    ((tasked full).getS 4).toNat < 2 ^ 14 ∧ (contHere (tasked full) 0 0).values.length ≤ 16 ∧ ((tasked full).getS 1).toNat < 2 ^ 56 ∧
    ((tasked full).getS 1).toNat % 8 = 0 ∧ Quiet (tasked (hoop0 .running)) ∧ (tasked waitingTask).landed 0 (pcSlot ((tasked waitingTask).contAt waitingTask 0).pc) = true :=
  ⟨by decide +kernel, fun x hx i hi => takes_of (by revert x i; decide +kernel), by decide +kernel, by decide +kernel, by decide +kernel, by decide +kernel,
    quiet_of (by decide +kernel), by decide +kernel⟩

/-- VF 0 with a launch queue of n records, and the record above at s1. -/
def queued (n : Nat) (anyplace : Bool) : State :=
  let s := (far false).modHub (fun h => { h with queues := [(0, ⟨1, 0, 0, 0, List.replicate n record0, []⟩)] })
  (((s.poke 0x10000 8 0x10000).poke 0x10008 8 (0x0101000000010000 + if anyplace then 0x1000000 else 0)).poke 0x10020 8 0x20000)
/-- The number that the record's 64 bytes give. -/
def recordBits (anyplace : Bool) : Nat :=
  0x10000 + (0x0101000000010000 + if anyplace then 0x1000000 else 0) * 2 ^ 64 + 0x20000 * 2 ^ 256
theorem wit_launch : (∀ n ∈ [0, 64], ∀ b ∈ [true, false], Takes (.launch 7 1 0) 7 .scalar (queued n b)) ∧ near.queue 0 0 = none ∧
    (∀ b ∈ [true, false], ∃ u ps, Reaches (.launch 7 1 0) accR [(((queued 0 b).getS 1).toNat, 64)] (queued 0 b) u ps ∧ readBy (queued 0 b) ps = recordBits b) ∧
    Quiet (queued 0 true) ∧ (queued 0 true).launchOk (recordBits true) = true ∧ (launchOf (recordBits true)).queue = 0 ∧ (queued 0 false).launchOk (recordBits false) = false := by
  refine ⟨fun n hn b hb => takes_of (by revert n b; decide +kernel), by decide, fun b hb => ?_, quiet_of (by decide +kernel), by decide +kernel, by decide +kernel,
    by decide +kernel⟩
  cases b <;> exact ⟨_, _, reaches_of (by decide +kernel), by decide +kernel⟩

/-- With the system-call slot of context 0 in state st. -/
def calling (st : Nat) : State := ((far false).modVf 0 (fun v =>
  { v with record := { v.record with scva := 0x20000 }, scFrames := [(0, 0x20000)] })).poke 0x20000 8 st
theorem wit_calls : near.callSlot = none ∧ (∀ i ∈ ([.syscNb 7 2 4, .sysc 7 4, .jrnl 7 4 2, .jrnl 7 4 1] : List Instr), Takes i 7 .scalar near) ∧
    (∀ n ∈ [0, 1, 2, 3, 5, 7], (calling n).callSlot = some (0x20000, 0x20000) ∧ (calling n).view 0x20000 8 = n ∧ (calling n).poison = [] ∧
      ((calling n).getS 2).toNat / 2 ^ 32 % 2 ^ 31 = 0 ∧ Takes (.syscNb 7 2 4) 7 .scalar (calling n) ∧ Takes (.sysc 7 4) 7 .scalar (calling n)) ∧
    Quiet (calling 0) ∧ Quiet (calling 3) ∧ 31 < (near.getS 1).toNat ∧ (near.getS 2).toNat ≤ 31 :=
  ⟨by decide, takes_all (by decide), fun n hn => ⟨by revert n; decide +kernel, by revert n; decide +kernel, by revert n; decide +kernel,
    by revert n; decide +kernel, takes_of (by revert n; decide +kernel), takes_of (by revert n; decide +kernel)⟩, quiet_of (by decide +kernel),
    quiet_of (by decide +kernel), by decide, by decide⟩
theorem wit_journal_entry : ((posted 8).core 0 |>.entry 7).state = .refused ∧ ((posted 8).core 0 |>.entry 7).owner = (posted 8).cur.ctx ∧
    ((posted 8).getS 2).toNat = 7 := by decide +kernel

/-- A machine whose hoop a debugger is attached to. -/
def debuggedOne : State := holding { hoop0 .running with dbg := true } ready
theorem wit_traps : (∀ s ∈ [ready, handler, debuggedOne], s.flags.getLsbD 22 = false ∧ Takes (.trap 7 5) 7 .scalar s ∧ Takes (.dbgbrk 7) 7 .scalar s) ∧
    ready.priv = false ∧ ready.cx.task = none ∧ ready.debugged 0 = false ∧ debuggedOne.debugged 0 = true ∧ debuggedOne.cx.st = .ready ∧ handler.priv = true :=
  ⟨fun s hs => ⟨by revert s; decide +kernel, takes_of (by revert s; decide +kernel), takes_of (by revert s; decide +kernel)⟩, by decide, by decide, by decide,
    by decide +kernel, by decide +kernel, by decide⟩
/-- In a handler, and outside one, with slot 0 landed, and s1 a free workspace. -/
def landed0 (s : State) : State := (regs s [(1, 0x80000)]).modSlot 0 0 (fun x => { x with state := .landed })
theorem wit_returns : (∀ s ∈ [ready, handler, landed0 ready, landed0 handler], Takes (.tret 7) 7 .scalar s ∧ Takes (.wspsw 7 1 0) 7 .scalar s) ∧
    ((landed0 handler).priv = true ∧ (((landed0 handler).core 0).slot ((landed0 handler).tpc % 2 ^ 14 / 1024)).state = .landed ∧
      (landed0 handler).workspaceOk (landed0 handler).twsp = true ∧ (landed0 handler).twsp = (landed0 handler).cx.wsp.toNat) ∧
    ((landed0 ready).priv = false ∧ (landed0 ready).workspaceOk ((landed0 ready).getS 1).toNat = true ∧ (landed0 ready).item 0x1220 8 = 0 ∧
      (((landed0 ready).core 0).slot (((landed0 ready).getS 0).toNat / 1024)).state = .landed) ∧
    (regs ready [(1, 1)]).workspaceOk ((regs ready [(1, 1)]).getS 1).toNat = false ∧ Takes (.wspsw 7 1 0) 7 .scalar (regs ready [(1, 1)]) ∧
    ((landed0 ready).setArrival 3 1).item 0x1220 8 ≠ 0 :=
  ⟨fun s hs => ⟨takes_of (by revert s; decide +kernel), takes_of (by revert s; decide +kernel)⟩, by decide +kernel, by decide +kernel, by decide +kernel,
    takes_of (by decide +kernel), by decide +kernel⟩
theorem wit_controls : (∀ c ∈ ([0, 10, 12, 15, 17, 21, 28] : List (BitVec 6)), Takes (.movc 7 4 c) 7 .scalar ready) ∧
    (∀ s ∈ [regs ready [(1, 0x1F)], regs ready [(1, 0x20)], regs handler [(1, 0x20)], regs handler [(1, 6)], regs ready [(1, -1)]],
      ∀ c ∈ ([1, 9, 10, 11, 15, 16, 17, 21, 22] : List (BitVec 6)), Takes (.movcw 7 c 1) 7 .scalar s) ∧
    (ctlReserved 10 0x1F = false ∧ ctlReserved 10 (-1) = true ∧ ctlReserved 17 6 = true ∧ ctlReserved 17 5 = false ∧ ctlReserved 18 0 = false) ∧
    ready.priv = false ∧ handler.priv = true :=
  ⟨fun c hc => takes_of (by revert c; decide +kernel), fun s hs c hc => takes_of (by revert s c; decide +kernel), by decide +kernel, by decide, by decide⟩

/-- In a handler, with VF 0 mapped, range entry 255 its own, and s1, s2 and s3 as given. -/
def tabled (a b c : W64) : State :=
  ((regs ((far false).setFlags 0x800000) [(1, a), (2, b), (3, c)]).modCx (fun x => { x with st := .away })).modHub (fun h => { h with ranges := [(255, ⟨0, 0, some 0, none, []⟩)] })
theorem wit_table_traps : ∀ i ∈ ([.cultld 7 1 2, .rangeset 7 1 2, .tlbinv 7 1 2] : List Instr), Takes i 7 .scalar ready ∧ ready.priv = false :=
  fun i hi => ⟨takes_of (by revert i; decide), by decide⟩
theorem wit_cultld : let s := tabled 0x10000 15 0; s.priv = true ∧ Takes (.cultld 7 1 2) 7 .scalar s ∧ (s.getS 2).toNat = 15 ∧ (s.getS 1).toNat % 64 = 0 ∧
    mapGet s.hub.cultures 15 = none ∧ Quiet s ∧ (∀ e ∈ s.rangeWords, e.2.1.getLsbD 63 = true → fld e.2.1 55 52 ≠ 15) ∧
    ∃ u ps, Reaches (.cultld 7 1 2) accR (splitPages (s.getS 1).toNat 1088) s u ps :=
  ⟨by decide +kernel, takes_of (by decide +kernel), by decide +kernel, by decide +kernel, by decide +kernel, quiet_of (by decide +kernel), by decide +kernel, _, _,
    reaches_of (by decide +kernel)⟩
theorem wit_rangeset : let s := tabled 255 0x8000000000010000 0x10000; s.priv = true ∧ Takes (.rangeset 7 1 2) 7 .scalar s ∧ (s.getS 1).toNat < 256 ∧
    mapGet s.hub.ranges (s.getS 1).toNat = some ⟨0, 0, some 0, none, []⟩ ∧ rangeReserved (s.getS 2) (s.getS 3) = false ∧ (s.getS 2).getLsbD 63 = true ∧
    (fld (s.getS 2) 8 0 = s.myVf ∧ fld (s.getS 2) 51 12 ≤ fld (s.getS 3) 51 12 ∧ rangeInside (fld (s.getS 2) 51 12) (fld (s.getS 3) 51 12) = true ∧
      s.culturable s.myVf (fld (s.getS 2) 55 52) = true ∧ ∀ r ∈ s.rangeWords, r.1 ≠ (s.getS 1).toNat → r.2.1.getLsbD 63 = false) ∧
    (∀ c ∈ s.allCtxs, c.2.2.ops = []) :=
  ⟨by decide +kernel, takes_of (by decide +kernel), by decide +kernel, by decide +kernel, by decide +kernel, by decide +kernel, by decide +kernel, by decide +kernel⟩
theorem wit_tlbinv : (∀ s ∈ [tabled 0x10000 1 0, tabled 0x10000 8 0, tabled 0x10000 4 0], s.priv = true ∧ Takes (.tlbinv 7 1 2) 7 .scalar s ∧
      (s.getS 2).toNat < 16 ∧ (s.getS 2).toNat % 4 < 2 ∧ ∀ o ∈ s.cx.ops, o.isTlbinv = false) ∧
    (let s := tabled 0x10000 4 0; (s.getS 2).getLsbD 2 = true ∧ (s.getS 2).toNat % 4 = 0 ∧ walksFor (s.getS 1).toNat = true ∧
      ∃ u ps e, Reaches (.tlbinv 7 1 2) accR [((s.getS 1).toNat, 1)] s u ps ∧ (u.lookup u.me (s.getS 1).toNat).2 = .leaf e) := by
  refine ⟨fun s hs => ⟨by revert s; decide +kernel, takes_of (by revert s; decide +kernel), by revert s; decide +kernel, by revert s; decide +kernel,
    by revert s; decide +kernel⟩, by decide +kernel, by decide +kernel, by decide +kernel, _, _, ⟨0, 0, 0x40000000, 0, false, false, true, true, true, 0,
      ⟨0, false, false, 0, 0⟩⟩, reaches_of (by decide +kernel), by decide +kernel⟩

theorem wit_sprints : (∀ s ∈ [ready, regs ready [(1, 5), (2, 1000000)]], Takes (.sprint 7 1 2) 7 .scalar s ∧ Takes (.unsprint 7) 7 .scalar s) ∧
    min (ready.getS 1).toNat 0xFFFFFFFF = 0 ∧
    (let s := regs ready [(1, 5), (2, 1000000)]; (s.vf s.myVf).sprint = true ∧ s.hub.meltRfz = false ∧ min (s.getS 1).toNat 0xFFFFFFFF ≠ 0 ∧ min (s.getS 2).toNat 1000000 ≠ 0 ∧ (s.quad s.q).leased = false) ∧
    (((ready.modQuad 0 (fun x => { x with lease := 0x80000001 })).quad 0).leased = true) :=
  ⟨fun s hs => ⟨takes_of (by revert s; decide), takes_of (by revert s; decide)⟩, by decide, by decide, by decide⟩

/-! The matrix unit. -/

/-- A test that a check passed. -/
def passes {α : Type} (c : OpCheck α) : Bool := match c with | .ok _ => true | _ => false
theorem ok_of {α : Type} {c : OpCheck α} (h : passes c = true) : ∃ x, c = .ok x := by
  unfold passes at h
  split at h
  · exact ⟨_, rfl⟩
  · cases h
theorem ok_pair {α : Type} {c : State × OpCheck α} (h : passes c.2 = true) : ∃ u x, c = (u, .ok x) := by
  obtain ⟨x, h⟩ := ok_of h
  exact ⟨c.1, x, by rw [← h]⟩

/-- An operation in flight that owns row group 0, captured the buffer and reads slot 0. -/
def op0 : MxOp :=
  { kind := .mul, win := ⟨0, 1, 1, 1, 0⟩, a := some ⟨some 0, false, 0, 0, ⟨0, false, false, 0, 0⟩, [], []⟩, b := none, sc := 0, rm := 1,
    prog := some ⟨0, 0, 1⟩, source := .command 0, vf := 0, tag := 0, old := [] }
/-- The word near as FP32 elements, s1 its address, with or without that operation. -/
def tiled (busy : Bool) : State := near.modQuad 0 (fun x => { x with attrs := [(4, 0x4001)], ops := if busy then [op0] else [] })
theorem wit_matrix : (∀ b ∈ [true, false], ∀ i ∈ ([.mxmul 7 0 1 1, .mxmuls 7 0 1 1, .mxrd 7 0 1, .mxwr 7 0 1, .mxzero 7 0, .mxdef 7, .mxclr 7, .mxstat 7 4, .mxscl 7 1,
      .mxdrain 7 2, .mxprog 7 0 0, .mxmul 7 5 1 1, .mxrd 7 5 1, .mxzero 7 5] : List Instr), Takes i 7 .scalar (regs (tiled b) [(5, 0x8000000000000000)])) ∧
    (∀ b ∈ [true, false], mxWindow ((tiled b).getS 0) true = some ⟨0, 1, 1, 1, 0⟩ ∧ mxWindow ((tiled b).getS 0) false = some ⟨0, 1, 1, 1, 0⟩ ∧
      ((tiled b).quad (tiled b).q).busy ⟨0, 1, 1, 1, 0⟩ = b) ∧ mxWindow 0x8000000000000000 true = none ∧ mxWindow 0x8000000000000000 false = none ∧
    Quiet (tiled false) ∧ (tiled false).discretion (.mxmul 7 0 1 1) = 0 ∧
    (∀ b ∈ [true, false], ∃ x0, (tiled b).operand 0 ((tiled b).getS 1) 1 1 = .ok x0) ∧
    (∀ b ∈ [true, false], ∃ x0, (tiled b).localOperand 0 ((tiled b).getS 1).toNat 1 1 true = .ok x0) :=
  ⟨fun b hb i hi => takes_of (by revert b i; decide +kernel), by decide +kernel, by decide +kernel, by decide +kernel, quiet_of (by decide +kernel),
    by decide +kernel, fun b hb => ok_of (by revert b; decide +kernel), fun b hb => ok_of (by revert b; decide +kernel)⟩
theorem wit_matrix_scales : ∀ (s : State) (w : Who) (x : Operand), x.attr.sh = false →
    (x.slot = none → attrAccepted x.attr localWin 131072 = true) → s.withScales w x = (s, .ok x) := by
  intro s w x h k
  simpa [State.withScales, h] using k
theorem wit_matrix_held : (tiled true).getS 2 = 7 ∧ ((tiled true).quad 0).owns 0 = true ∧ ((tiled false).quad 0).ops = [] ∧ ((tiled false).quad 0).inbox = [] ∧
    ((tiled true).quad 0).bufferBusy = true ∧ ((tiled false).quad 0).bufferBusy = false ∧ stepOk 0 0 = true ∧ 2 ^ 48 ≤ ((0x1000000000000 : W64)).toNat ∧
    ((tiled false).getS 1).toNat < 2 ^ 48 := by decide +kernel

/-- A page of FP32 elements at s1, and s3 the descriptor of one row of 64 bytes for slot 0. -/
def paged (busy : Bool) : State :=
  let s := (((far false).poke 0x1048 8 1).poke 0x2000 8 0x9C20000000000000).modQuad 0 (fun x => { x with ops := if busy then [op0] else [] })
  regs s [(3, 64)]
/-- The pages of that fetch. -/
def fetched (s : State) : Option Fetched := match (s.fetchPages s.me (fetchPieces (s.getS 1) (s.getS 3))).2 with | .ok f => some f | _ => none
theorem wit_mxfetch : ∀ b ∈ [true, false], Takes (.mxfetch 7 1 3) 7 .scalar (paged b) ∧ (fld ((paged b).getS 3) 63 58 = 0 ∧ fld ((paged b).getS 3) 31 23 = 0 ∧
      0 < fld ((paged b).getS 3) 15 0 ∧ (fld ((paged b).getS 3) 22 16 + 1) * fld ((paged b).getS 3) 15 0 ≤ 65536) ∧
    (∃ u f, (paged b).fetchPages (paged b).me (fetchPieces ((paged b).getS 1) ((paged b).getS 3)) = (u, .ok f)) ∧
    ((fetched (paged b)).any (fun f => !f.tr && f.attrs.headD ⟨1, false, false, 0, 0⟩ == ⟨0, false, false, 0, 1⟩ &&
      f.attrs.all (fun z => z.agrees ⟨0, false, false, 0, 1⟩)) = true) ∧ ((paged b).quad 0).slotInUse 0 = b ∧ (paged b).discretion (.mxfetch 7 1 3) = 0 ∧
    64 + (paged b).pinnedOthers (tileOfQuad 0) 0 0 + ((paged b).tile 0).pinBusy ≤ 0x200000 ∧ Quiet (paged b) :=
  fun b hb => ⟨takes_of (by revert b; decide +kernel), by revert b; decide +kernel, ok_pair (by revert b; decide +kernel), by revert b; decide +kernel,
    by revert b; decide +kernel, by revert b; decide +kernel, by revert b; decide +kernel, quiet_of (by revert b; decide +kernel)⟩
theorem wit_mxcap : ∀ s ∈ [regs ready [(1, 0x10000)], regs ready [(1, 0x1000000010000)], regs handler [(1, 0x1000000010000)]], Takes (.mxcap 7 4 1 2) 7 .scalar s ∧
    ((s.getS 1).toNat < 2 ^ 57 ∧ fld (s.getS 1) 47 41 = 0 ∧ fld (s.getS 1) 31 26 = 0 ∧ fld (s.getS 1) 15 3 = 0 ∧ fld (s.getS 1) 56 48 ≤ 383 ∧
      0 < fld (s.getS 1) 25 16 ∧ fld (s.getS 1) 40 32 + fld (s.getS 1) 25 16 ≤ 512) ∧
    (fld (s.getS 1) 56 48 = s.myVf ∨ s.priv = true ∨ (fld (s.getS 1) 56 48 ≠ s.myVf ∧ s.priv = false)) :=
  fun s hs => ⟨takes_of (by revert s; decide), by revert s; decide, by revert s; decide⟩
theorem wit_mxcmd : Takes (.mxcmd 7 0 5) 7 .scalar ready ∧ (ready.getS 0).toNat < 2 ^ 55 ∧ fld (ready.getS 5) 63 60 = 0 ∧ fld (ready.getS 5) 59 56 = 0 ∧
    fld (ready.getS 5) 2 0 = 0 ∧ ready.poison = [] ∧ ready.commandsFor (fld (ready.getS 0) 54 46) < 4 ∧ ready.discretion (.mxcmd 7 0 5) = 0 ∧ Quiet ready :=
  ⟨takes_of (by decide), by decide, by decide, by decide, by decide, by decide, by decide, by decide, quiet_of (by decide)⟩

/-! The step, and the steps with no instruction behind them. -/

/-- After reset, with the word of ADDI s3, s1, -1 in place, or one that is none. -/
def placed (w : Nat) : State := State.reset.withFetchWord 32 w
theorem wit_step : ∀ w ∈ [(encode (.addi 7 3 1 0x3FF)).toNat, 0x3C000000], (placed w).hub.started = true ∧ (placed w).schedule = [⟨.core 0, 1, none⟩] ∧
    ((placed w).quad (quadOf 0)).fduty = 16 ∧ (((placed w).core 0).last + 1) % 16 = 0 ∧ ((placed w).ctx 0 0).st = .ready ∧
    ((placed w).ctx 0 0).yielded = false ∧ (4 : Int) ≤ (((placed w).core 0).cyc : Int) - ((placed w).ctx 0 0).lastIssue ∧ ((placed w).ctx 0 0).pend = [] ∧
    ((placed w).ctx 0 0).chain = [] ∧ (((placed w).core 0).slot 0).state = .landed ∧ (((placed w).core 0).slot 0).poison = [] ∧
    (mapGet (((placed w).core 0).slot 0).words 0).getD 0 = BitVec.ofNat 32 w := by decide +kernel
theorem wit_step_word : decode (encode (.addi 7 3 1 0x3FF)) = .ok (.addi 7 3 1 0x3FF) ∧ decode 0x3C000000 = .illegal := by decide
theorem wit_step_turn : ∀ w ∈ [(encode (.addi 7 3 1 0x3FF)).toNat, 0x3C000000],
    let begun := ({ placed w with schedule := [] } : State).modQuad 0 (fun y => { y with round := 0 :: y.round, grants := [] ++ y.grants })
    let u : State := { (((begun.tickCore 0).modCore 0 (fun c => { c with last := 0 })).modCtx 0 0 (fun y =>
      { y with lastIssue := 0, yielded := false })) with cur := ⟨0, 0⟩ }
    (placed w).tickDue = false ∧ (placed w).dueCore 0 = some 0 ∧ (arbitrate u.taken (u.requests (.addi 7 3 1 0x3FF))).2 = [] ∧
      (arbitrate u.taken (u.requests (.illegalInstruction 0x01 0x3C000000))).2 = [] ∧ u.flags.getLsbD 22 = false := by decide +kernel
theorem wit_step_holds (w : Nat) : ∀ j, ((placed w).ctx 0 j).hold = none ∧ ((placed w).ctx 0 j).resv = none := by
  intro j
  cases j with
  | zero => exact ⟨rfl, rfl⟩
  | succ j => exact ⟨rfl, rfl⟩
theorem wit_memory_canonical : Memory.wf State.reset.mem = true ∧ ∃ t, step State.reset = .next t := ⟨rfl, _, rfl⟩

/-- Context 0 of core 0 changed. -/
def withCtx (f : Ctx → Ctx) : State := near.modCx f
theorem wit_holds : (let s := withCtx (fun x => { x with st := .held, hold := some 1024 }); s.cx.st = .held ∧ s.cx.hold = some 1024) ∧
    (withCtx (fun x => { x with resv := some ⟨0, [], 1024⟩ })).cx.resv = some ⟨0, [], 1024⟩ := by decide +kernel
theorem wit_park_ge_read : let s := withCtx (fun x => { x with st := .parked, park := .ge 0x7FFFFFE80000 0 true })
    s.cx.park = .ge 0x7FFFFFE80000 0 true ∧ s.cx.st = .parked ∧ (s.place ⟨0, 0, false, false, some (quadOf 0)⟩ accR.config 0x7FFFFFE80000).2 =
      .at (quadLocal 0 + 0x80000) ⟨1, false, false, 0, 0⟩ false ∧ s.poisoned (quadLocal 0 + 0x80000) = false := by decide +kernel
theorem wit_nput_landings : ∀ b ∈ [63, 64, 95], let s := withCtx (fun x =>
      { x with st := .parked, park := .nb b, nputs := [⟨b, near.ws, List.replicate (if b < 64 then 8 else 128) 1, 1⟩] })
    s.cx.nputs = [⟨b, near.ws, List.replicate (if b < 64 then 8 else 128) 1, 1⟩] ∧ s.cx.st = .parked ∧ s.cx.park = .nb b ∧ near.ws = s.wsOf 0 0 := by decide +kernel
/-- Two arrival loads in flight, and two stores accepted, of RC pages, that do not meet. -/
def crossing : State := withCtx (fun x => { x with
  ldas := [⟨false, true, 1, 0, near.ws, 0, 1, 1, [(0x1000, 8)], [], 0, [], []⟩, ⟨true, true, 1, 0, near.ws, 0, 1, 1, [(0x2000, 8)], [], 0, [], []⟩],
  stores := [⟨.plain, 1, 0, false, [], 0, [⟨0x1000, 0x1000, [1]⟩]⟩, ⟨.plain, 1, 0, false, [], 0, [⟨cfgPage 0, 0x2000, [1]⟩]⟩] })
theorem wit_performs : (∀ i ∈ [0, 1], ∀ l, crossing.cx.ldas[i]? = some l → ∀ m ∈ crossing.cx.ldas.take i, overlap m.reads l.reads = false ∧ (m.ord ≠ 0 ∨ l.ord ≠ 0)) ∧
    (∀ i ∈ [0, 1], ∀ p, crossing.cx.stores[i]? = some p → ∀ q ∈ crossing.cx.stores.take i, overlap (segRuns q.segs) (segRuns p.segs) = false ∧ (q.ord ≠ 0 ∨ p.ord ≠ 0)) ∧
    (crossing.cx.ldas[1]?).isSome = true ∧ (crossing.cx.stores[1]?).isSome = true ∧ isCfg (cfgPage 0) = true ∧ cfgOff (cfgPage 0) < 0x80 := by
  refine ⟨?_, ?_, by decide +kernel, by decide +kernel, by decide +kernel, by decide +kernel⟩ <;>
    (intro i hi l hl; simp only [List.mem_cons, List.not_mem_nil, or_false] at hi; rcases hi with rfl | rfl <;> (cases hl; decide +kernel))
/-- A posted store of the page of s1, PENDING, whose home accepts or refuses it. -/
def pending (s : State) : State := s.modEntry 0 0 (fun _ => ⟨.pending, 0, 0, false, true, 0x10000, 0, 1, [⟨0x10000, 0x10000, [1]⟩], 0⟩)
theorem wit_posts : ((pending (far false)).core 0 |>.entry 0).state = .pending ∧ (pending (far false)).postFree 0 0 = true ∧
    (pending (far false)).postRefusal ((pending (far false)).core 0 |>.entry 0) = none ∧ (pending refusing).postFree 0 0 = true ∧
    ((pending refusing).postRefusal ((pending refusing).core 0 |>.entry 0)).isSome = true ∧ ((filling.core 0).slot 1).state = .filling := by decide +kernel
theorem wit_async : let s := withCtx (fun x => { x with pend := [⟨0x20, 1⟩] }); s.cx.st = .ready ∧ s.cx.chain = [] ∧ s.cx.pend = [⟨0x20, 1⟩] := by decide +kernel

/-- A copy of core 0 in slot 0, with a counter or none, moved or not, its context gone or not. -/
def copy0 (counter : W64) (moved live : Bool) : Copy :=
  { ctx := 0, live := live, hoop := none, vf := 0, tag := 0, serial := 1, regs := { Shadow.reset with counter := counter }, promise := 0, moved := moved, done := 0,
    faulted := false, missing := [], recorded := false, added := false, late := false, order := 0 }
def copying (c : Copy) : State := (near.modHub (fun h => { h with now := 1 })).setCopy 0 0 c
theorem wit_copy_events : (copying (copy0 8 false true)).copyAt 0 0 = some (copy0 8 false true) ∧ (copying (copy0 8 false true)).copyTurn 0 (copy0 8 false true) = true ∧
    ((((copying { copy0 8 false true with late := true }).moveCopy 0 0).promiseTest 0 0).copyAt 0 0).isSome = true ∧ (copy0 8 false true).added = false ∧ (copying (copy0 0 false true)).copyAt 0 0 = some (copy0 0 false true) ∧
    (copying (copy0 0 true true)).copyAt 0 0 = some (copy0 0 true true) := by decide +kernel
theorem wit_promise (live : Bool) : (copying (copy0 0 true live)).copyAt 0 0 = some (copy0 0 true live) ∧ (copy0 0 true live).late = false ∧
    (copy0 0 true live).promise.toNat < ((copying (copy0 0 true live)).tstamp (tileOf 0)).toNat := by
  refine ⟨rfl, rfl, ?_⟩
  have h : ((copying (copy0 0 true live)).tstamp (tileOf 0)).toNat = (1 + (Config.tileSkew (tileOf 0)).val) % 2 ^ 64 := by
    simp only [State.tstamp, BitVec.toNat_ofNat]; rfl
  have := (Config.tileSkew (tileOf 0)).isLt
  rw [h]
  show 0 < _
  omega

/-- The operation in flight and its slot, filled; the command of window 0 in the inbox. -/
def command0 (target : W64) (live : Bool) : MxCommand :=
  { token := target <<< 46, vf := 0, tag := 0, core := 0, ctx := 0, hoop := none, live := live, word := 0x8000000000000000, w := 0, a := 0, b := 0, sc := 0, rm := 1 }
def matrixed (inbox : List MxCommand) (busy : Bool) : State :=
  let slot : FetchSlot := ⟨0, 0, ⟨0, false, false, 0, 0⟩, [], [], true, false, true⟩
  near.modQuad 0 (fun x =>
    { x with ops := if busy then [op0] else [], inbox := inbox, slots := [(0, slot)], caps := [(0, ⟨0, 0, 512, 0, 0⟩)] })
theorem wit_matrix_events : (matrixed [] true).quad 0 |>.ops[0]? = some op0 := rfl
theorem wit_matrix_ready : (matrixed [] true).opReady 0 op0 = true ∧ (mapGet ((matrixed [] true).quad 0).slots 0).isSome = true := by decide +kernel
theorem wit_commands : (∀ t ∈ ([384, 0] : List Nat), let s := near.modHub (fun h => { h with commands := [command0 (BitVec.ofNat 64 t) true] })
      s.hub.commands[0]? = some (command0 (BitVec.ofNat 64 t) true) ∧ ((command0 (BitVec.ofNat 64 t) true).token.extractLsb' 46 9).toNat = t ∧ (s.quad 0).inbox.length < 4) ∧
    ((matrixed [command0 0 true] false).quad 0).inbox = [command0 0 true] ∧ ((matrixed [{ command0 0 true with vf := 1 }] false).commandOp 0 { command0 0 true with vf := 1 }).2.isNone = true ∧
    ((matrixed [command0 0 true] false).commandOp 0 (command0 0 true)).2.isSome = true ∧ ((matrixed [command0 0 true] false).quad 0).busy ⟨0, 1, 1, 1, 0⟩ = false := by
  decide +kernel
theorem wit_engine_events : (∀ b ∈ [true, false], (near.modHub (fun h => { h with returns := [command0 0 b] })).hub.returns[0]? = some (command0 0 b)) ∧
    (let s := near.modChan 0 3 (fun c => { c with flight := [⟨9, 16, 1, 4⟩, ⟨8, 0, 1, 4⟩] })
     ((s.core 0).chan 3).flight = [⟨9, 16, 1, 4⟩, ⟨8, 0, 1, 4⟩] ∧ ∀ x ∈ [(⟨8, 0, 1, 4⟩ : Flit)], x.sender = 1) ∧
    (∀ m ∈ [(⟨0, 0, none, 0, 0, none⟩ : ScopeMiss), ⟨0, 0, none, 0, 0, some 5⟩], (near.modHub (fun h => { h with misses := [m] })).hub.misses[0]? = some m) ∧
    (let s := (far false).modHub (fun h => { h with susps := [⟨0, 0, 0, ⟨5, 0, []⟩, 0x10000, 1, none⟩] })
     s.hub.susps[0]? = some ⟨0, 0, 0, ⟨5, 0, []⟩, 0x10000, 1, none⟩ ∧ s.poison = [] ∧ (s.enginePlace (engineOf 0 0) accR.global 0x10000).2 = .inl 0x10000) ∧
    isLocal 0 = false ∧ (near.modQuad 0 (fun x => { x with testing := [3] }) |>.quad 0).testing.contains 3 = true := by decide +kernel

/-- Line 7 waits for participant 5. -/
def probed (wait : List Nat) (req : Option Nat) : State := near.setDir 7 ⟨0, 3, [], none, false, req, wait, true, wait, wait.map (fun x => (x, (0, 0))), [], [], [], []⟩
theorem wit_home_waits : ((probed [5] (some 1)).dirOf 7).wait.contains 5 = true ∧ ((probed [5] (some 1)).dirOf 7).wait ≠ [] ∧
    (let s := (probed [5] (some 1)).modHub (fun h => { h with now := 4000 });
      mapGet (s.dirOf 7).sent 5 = some (0, 0) ∧ 0 + 1000 ≤ s.hub.now ∧ near.hub.now < 0 + 1000) ∧ (probed [] (some 1)).transient ((probed [] (some 1)).rangeSlot (64 * 7)) ((probed [] (some 1)).dirOf 7).state = true ∧
    ((probed [] (some 1)).dirOf 7).wait = [] ∧ ((probed [] (some 1)).dirOf 7).dataDue = true ∧
    near.rangeSlot (64 * 7) < 7 := by decide +kernel
theorem wit_actions : (near.actionWord (near.rangeSlot (64 * 7)) (near.dirOf 7).state 0).getLsbD 0 = true ∧
    (refusing.actionWord (refusing.rangeSlot 0x10000) 1 0).getLsbD 0 = false := by decide +kernel
theorem wit_host_accesses : (1 ≤ 64 ∧ 0x10000 % 64 + 64 ≤ 64 ∧ isHbm 0x10000 = true) ∧ ¬(1 ≤ 0 ∧ 0x10000 % 64 + 0 ≤ 64) ∧ ¬(isHbm (quadLocal 0) = true ∨ isHost (quadLocal 0) = true) ∧
    (far false).refuses 0x10000 6 = false ∧ refusing.refuses 0x10000 6 = true ∧ (far false).refuses 0x10000 7 = false ∧ (far false).poison = [] ∧
    ((9 ≤ 9 ∧ (8 = 4 ∨ 8 = 8) ∨ 9 = 9 ∧ 8 = 16) ∧ 0x10000 % 8 = 0) := by decide +kernel
theorem wit_host_accesses_quiet : NoHostWatch (far false) := noHostWatch_of (by decide +kernel)

/-- An image of one state, its own home, in which every event stays, at 0x30000; CULTLD of it into slot 15 under way. -/
def imaged (good : Bool) : State :=
  let s := if good then (List.range 16).foldl (fun t e => t.poke (0x30040 + 4 * e) 4 1) ((near.poke 0x30000 1 1).poke 0x30010 2 0x2000) else near
  s.modCx (fun x => { x with ops := [.cultld 15 [(0x30000, 1088)] true] })
theorem wit_cultures : (∀ b ∈ [true, false], (imaged b).cx.ops.find? CtxOp.isCultld = some (.cultld 15 [(0x30000, 1088)] true) ∧ (imaged b).poison = [] ∧
      (imaged b).cx.pend.length < 8) ∧
    (let v := leNat ((fromTo 0x30000 1088).map (imaged true).look); imageFault v (imageOf 0 v) = none) ∧
    (let v := leNat ((fromTo 0x30000 1088).map (imaged false).look); imageFault v (imageOf 0 v) = some (1, 0, 0)) := by decide +kernel
theorem wit_table_operations : (withCtx (fun x => { x with ops := [.rangeset 255 1 2] })).cx.ops.find? CtxOp.isRangeset = some (.rangeset 255 1 2) ∧
    (withCtx (fun x => { x with ops := [.tlbinv 0 true false false 0 none] })).cx.ops.find? CtxOp.isTlbinv = some (.tlbinv 0 true false false 0 none) := by decide +kernel

/-- VF 0 in partition 0, which holds quad 0. -/
def parted (s : State) : State :=
  (s.modPart 0 (fun x => { x with record := { x.record with quads := [0] } })).modQuad 0 (fun x => { x with part := some 0 })
/-- The record of one core at the origin, as 512 bits. -/
def rec (anyplace : Bool) : BitVec 512 := BitVec.ofNat 512 (recordBits anyplace)
theorem wit_launch_lines : (queued 0 true).queue 0 0 = some ⟨1, 0, 0, 0, [], []⟩ ∧ (queued 0 true).launchOk (rec true).toNat = true ∧
    (launchOf (rec true).toNat).queue = 0 ∧ (launchOf (rec true).toNat).vf = 0 ∧ (launchOf (rec true).toNat).anyplace = true := by decide +kernel
theorem wit_launch_packets : (launchOf (rec false).toNat).anyplace = false ∧ (queued 0 true).launchOk (rec false).toNat = false ∧
    (parted (queued 0 true)).launchOk (rec false).toNat = true ∧ ((parted (queued 0 true)).queue 0 0).isSome = true ∧
    (parted (queued 0 true)).packetBefore ⟨0, 0, 0, 0⟩ = false := by decide +kernel
theorem wit_held_launch : let s := near.modHub (fun h => { h with queues := [(0, ⟨1, 0, 0, 0, [], [(5, record0)]⟩)] })
    s.queue 0 0 = some ⟨1, 0, 0, 0, [], [(5, record0)]⟩ ∧ record0.packet = none := by decide +kernel
theorem wit_charge : (holding (hoop0 .running) near).hub.hoops = [(0, hoop0 .running)] ∧ (holding (hoop0 .running) near).hub.parts = [] := by decide +kernel
theorem wit_dispatch : (near.refill 0).nextLaunch 0 = none ∧ (parted (queued 1 true)).hub.queues = [(0, ⟨1, 0, 0, 0, [record0], []⟩)] ∧
    ∃ z o, ((parted (queued 1 true)).refill 0).nextLaunch 0 = some (8 * 0 + 0, z, record0, o) :=
  ⟨by decide +kernel, by decide +kernel, ⟨1, 0, 64, 0, [record0], []⟩, (0, 0), by decide +kernel⟩
/-- Hoop 0 in the state given, under VF 0's translation. -/
def hooped (x : Hoop) : State := holding x (far false)
theorem wit_loader : (hooped (hoop0 .placed)).hoop 0 = some (hoop0 .placed) ∧ (hoop0 .placed).cores = [0] ∧ (hooped (hoop0 .placed)).segmentIn 0 record0 = false ∧
    (hooped (hoop0 .placed)).poison = [] ∧ ((hooped (hoop0 .placed)).enginePlace (engineOf 0 0) accX record0.code.toNat).2 = .inl 0x10000 ∧
    (∀ m ∈ (hoop0 .placed).cores, ((hooped (hoop0 .placed)).modSlot 0 0 (fun x => { x with state := .landed, sva := record0.code })).segmentIn m record0 = true) := by
  decide +kernel
theorem wit_hoop_ends : (hooped (hoop0 .running)).hoop 0 = some (hoop0 .running) ∧ (hoop0 .running).sliceEnd ≤ (hooped (hoop0 .running)).hub.now ∧
    (hooped (hoop0 .running)).displacer 0 (hoop0 .running) = none ∧ (hooped (hoop0 .ending)).hoop 0 = some (hoop0 .ending) ∧
    (∀ m ∈ (hooped (hoop0 .ending)).cores, m.2.copies = []) ∧ (hooped (hoop0 .ending)).refuses 0x20000 3 = false ∧ isHbm 0x20000 = true ∧
    ((hooped (hoop0 .ending)).enginePlace (hubOf 0) accRW.global record0.done.toNat).2 = .inl 0x20000 ∧
    ((near.modQuad 0 (fun x => { x with fused := true })).quad 0).fused = true ∧ (∀ m ∈ quadCores 0, (near.core m).hoop = none) := by decide +kernel
theorem wit_debugger : (let x := { hoop0 .running with dbg := true }; (hooped x).hoop 0 = some x ∧ x.dbg = true ∧ x.state = .running ∧ (hooped x).debugged 0 = true ∧
      ((hooped x).ctx 0 0).st = .ready ∧ ((hooped x).ctx 0 0).chain = [] ∧ ((hooped x).modCtx 0 0 (fun y => { y with st := .stopped }) |>.ctx 0 0).st = .stopped) ∧
    ({ hoop0 .running with dbg := true, frozenDbg := true }).frozenDbg = true ∧ 0x1278 + 8 ≤ 0x1400 ∧
    (∀ j < 8, near.isReserved (near.wsOf 0 0 + 0x1278 + j) = false) := by decide +kernel
/-- A gang switch of partition 0. -/
def ganged (ph : GangPhase) (s : State) : State := s.modPart 0 (fun x => { x with gang := some ⟨ph, 0, [], [], none, 0, 0, [], [], [], []⟩ })
theorem wit_gangs : (0 < near.hub.now + 1000 ∧ near.hub.now + 1000 ≤ 1000 ∧ (near.part 0).gang = none ∧ ((ganged .requested near).part 0).gang ≠ none) ∧
    (∀ ph ∈ [GangPhase.requested, .stopped, .saved], ((ganged ph near).part 0).gang = some ⟨ph, 0, [], [], none, 0, 0, [], [], [], []⟩) ∧
    ((ganged .requested (hooped (hoop0 .running))).hoopsOf 0 .placed = [] ∧ (ganged .requested (hooped (hoop0 .running))).hoopsOf 0 .running = [(0, hoop0 .running)]) ∧
    ((ganged .stopped near).part 0).record.quads = [] ∧
    (let s := ganged .saved (near.poke 0 8 (2 ^ 63)); s.mayResume 0 ⟨.saved, 0, [], [], none, 0, 0, [], [], [], []⟩ = true ∧ s.peek (s.part 0).record.save 8 = 2 ^ 63) := by
  decide +kernel

/-- A VF record, and a partition record, within every limit. -/
def vfRecord : VfRecord := ⟨0, 0, 8, true, 0, 0, 0, 0, [1, 0, 0, 0, 0, 0, 0, 255], [50, 50, 50, 50, 50, 50, 50, 100000], []⟩
def partRecord : PartRecord := ⟨[0], 0x1000000, 0x249000, 0, 2, 0x2000000, 0x24000⟩
theorem wit_configuration : near.vfRecordOk 0 vfRecord = true ∧ near.vfIdle 0 = true ∧ near.vfRecordOk 0 { vfRecord with wwq := 4097 } = false ∧
    sameVfRecord (near.vf 0).record { vfRecord with weights := [] } = true ∧ near.partRecordOk 0 partRecord = true ∧ mapGet near.hub.parts 0 = none ∧
    (∀ x ∈ near.vfsOf 0, near.vfIdle x = true) ∧ near.partRecordOk 0 { partRecord with ceil := 3 } = false := by decide +kernel
theorem wit_assignment : (let s := (parted near).modVf 0 (fun x => x)
    (s.quad 0).part = some (s.vf 0).record.part ∧ (mapGet s.hub.vfs 0).isSome = true ∧ (∀ m ∈ quadCores 0, (s.core m).hoop = none) ∧ (s.quad 0).vf = 0) ∧
    (let s := (parted near).modVf 383 (fun x => x); (s.quad 0).part = some (s.vf 383).record.part ∧ (mapGet s.hub.vfs 383).isSome = true ∧ (s.quad 0).vf ≠ 383) ∧
    (mapGet near.hub.ranges 255).bind (fun x => x.vf) ≠ some 0 := by decide +kernel
theorem wit_power : ((ready.modQuad 0 (fun x => { x with lease := 0x80000001 })).quad 0).leased = true ∧
    ((ready.modQuad 0 (fun x => { x with lease := 0x80000001 })).quad 0).leaseEnd.toNat = 0 ∧
    (∀ ph ∈ [RailPhase.steady, .rise, .hold, .descent], ((near.modTile 0 (fun x => { x with phase := ph })).tile 0).phase = ph) ∧ (near.tile 0).holdEnd ≤ near.hub.now := by
  decide +kernel
theorem wit_lease_end : ((ready.modQuad 0 (fun x => { x with lease := 0x80000001 })).quad 0).leaseEnd.toNat ≤ (ready.tstamp (tileOfQuad 0)).toNat := Nat.zero_le _
/-- A fault ring of VF 0 at 0x40000 that holds one record back. -/
def ringing : State := ((far false).modVf 0 (fun v => { v with record := { v.record with fring := 0x40000 } })).setRingHeld (.fault 0) [List.replicate 64 1]
theorem wit_rings : near.ringHeld (ringNumber 0) = [] ∧ ringing.ringHeld (ringNumber 0) = [List.replicate 64 1] ∧
    (ringing.ringWrite (ringNumber 0) (List.replicate 64 1)).isSome = true ∧ ringing.hub.waits = [] := by decide +kernel
theorem wit_host_watches : near.waitsOf 0 ≥ (near.vf 0).record.wwq ∧ (roomy 1 near).waitsOf 0 < ((roomy 1 near).vf 0).record.wwq ∧
    (hostEntry 0 (((roomy 1 near).modPage 0 (fun y => y.setWatch 3 0)).page 0).hwatch).mode ≠ 1 := by decide +kernel
theorem wit_reports : (∃ e ∈ (near.modHub (fun h => { h with reports := [⟨0, 5, none⟩] })).hub.reports, e.dest = 5) ∧ near.hub.reports = [] ∧
    (near.modHub (fun h => { h with reports := [⟨0, 999, none⟩] })).hub.reports = [⟨0, 999, none⟩] ∧ (1 : W64).getLsbD 0 = true := by decide +kernel
theorem wit_links : (far false).walk 0 0x10000 = .leaf ⟨0, 0, 0x40000000, 0, false, false, true, true, true, 0, ⟨0, false, false, 0, 0⟩⟩ ∧
    hostRun 0x10000 8 = true ∧ (far false).poison = [] ∧ (far false).refuses 0x10000 6 = false ∧ near.walk 0 0x10000 = .invalid := by decide +kernel

/-! Homes that serve, defer and refuse; what else the statements ask for. -/

/-- The home of the word or page of s1 serves the requests of the issuing context once it is translated. -/
theorem wit_served : (∀ s ∈ [near, counted, flying, joined, watched false], ∀ a ∈ ([accR.config, accRW.config.global, accR.global, accRW.global, accR] : List Acc),
      ∀ ev ∈ [0, 3, 4], (s.xlate s.me a [((s.getS 1).toNat, 16)]).1.askBusy (tileOf s.cur.core) [((nearPart 16).pa, 16)] ev = false) ∧
    (∀ s ∈ [far false, refusing, queued 0 true, queued 0 false], ∀ a ∈ ([accR, accRW.config, accRW.config.global] : List Acc), ∀ ev ∈ [0, 3, 4, 12],
      (s.xlate s.me a [((s.getS 1).toNat, 64)]).1.askBusy (tileOf s.cur.core) [((farPart 64).pa, 64)] ev = false) ∧
    Served near [(quadLocal 0 + 0x80000, 8)] 0 ∧ (∀ s ∈ [near, far false, counted, joined, queued 0 true], s.cx.ops = []) := by
  unfold Served; decide +kernel
theorem wit_uncached : Uncached [nearPart 8] ∧ isCfg (farPart 8).pa = false := by
  refine ⟨?_, by decide +kernel⟩
  intro p hp
  rw [List.mem_singleton.mp hp]
  decide +kernel
theorem wit_prefetch_of_poison : (Instr.pref 7 1).accepts (spoilt 8).cx.chain = true ∧ (Instr.pref 7 1).guardField = 7 ∧
    (spoilt 8).readPoison (.pref 7 1) = some (quadLocal 0 + 8) ∧ (Instr.pref 7 1).neverTraps = true ∧ (Instr.add 9 3 1 2).neverTraps = false := by
  decide +kernel
theorem wit_accepted_parts : (∀ r ∈ ([⟨quadLocal 0 + 0x80000, 0x7FFFFFE80000, [1, 2]⟩] : List Seg), isLocal r.pa = true ∧ ∀ j < r.bytes.length, isLocal (r.pa + j) = true) ∧
    (∀ r ∈ ([⟨0x10000, 0x10000, [1]⟩, ⟨0x8000000000000, 0, [1]⟩, ⟨cfgPage 0, 0, [1]⟩] : List Seg), isHbm r.pa = true ∨ isHost r.pa = true ∨ isCfg r.pa = true) := by
  decide +kernel
theorem wit_plain_words : (∀ j < 16, near.isReserved (quadLocal 0 + 0x80000 + j) = false ∧ near.isProtected (quadLocal 0 + 0x80000 + j) = false ∧
      near.isModeByte (quadLocal 0 + 0x80000 + j) = false) ∧ near.refuses (quadLocal 0 + 0x80000) 3 = false ∧
    NoSuspended near (quadLocal 0 + 0x80000) ∧ (near.isReserved (near.ws + 0x1278) = false ∧ near.isModeByte (near.ws + 0x1278) = false) :=
  ⟨by decide +kernel, by decide +kernel, (fun q hq => by cases hq), by decide +kernel⟩
theorem wit_given : mapGet (filled.quad filled.q).given (presenceKey filled.ws 2) = none ∧
    mapGet ((filled.modQuad 0 (fun q => { q with given := [(presenceKey filled.ws 2, 1)] })).quad 0).given (presenceKey filled.ws 2) = some 1 := by
  decide +kernel
theorem wit_parked_task : (tasked waitingTask).hoop 0 = some waitingTask ∧ waitingTask.pushed = [0] ∧ frozen.frozen = true ∧
    (let k : Cont := ⟨5, 6, [1, 2]⟩; k.mask.getLsbD 0 = false ∧ k.values.length ≤ 16 ∧
      k.values.length = ((List.range 64).filter (fun j => k.mask.getLsbD j)).length) := by decide +kernel

/-- The line of s1's page, owned by the last tile, a context of which reserves it. -/
def reserved : State := ((far false).modCtx 1535 0 (fun x => { x with resv := some ⟨0, [0x400], 0⟩ })).takeLine 47 0x400 |>.setDir 0x400
  { DirEntry.fresh 0 with state := 2, sharers := [47], owner := some 47 }
theorem wit_deferred : (∀ ev ∈ [0, 1, 2, 3, 4, 5, 6, 7, 12, 13], reserved.deferred 0x400 ev (some 0) = true) ∧ reserved.deferred 0x400 13 none = true ∧
    (far false).deferred 0x400 12 (some 0) = false ∧ (far false).deferred 0x400 13 none = false ∧
    reserved.mayEvict 47 0x400 = false ∧ (far false).mayEvict 47 0x400 = true ∧ reserved.homeBusy [(0x10000, 64)] 6 (some 48) = true ∧
    reserved.homeBusy [(0x10000, 64)] 7 (some 48) = true ∧ (far false).homeBusy [(0x10000, 64)] 5 (some 48) = false ∧
    (far false).homeBusy [(0x10000, 64)] 6 (some 48) = false ∧ (far false).homeBusy [(0x10000, 64)] 7 (some 48) = false ∧
    (far false).retriesAt 0x400 12 = false ∧ (far false).retriesAt 0x400 13 = false := by decide +kernel
theorem wit_busy_stores : (let p : PendStore := ⟨.plain, 1, 0, false, [], 0, [⟨0x10000, 0x10000, [1]⟩]⟩
      let s (t : State) : State := t.modCx (fun x => { x with stores := [p] })
      (s reserved).cx.stores[0]? = some p ∧ (s reserved).storeBusy 0 p = true ∧ (s (far false)).storeBusy 0 p = false) ∧
    (let e := (pending reserved).core 0 |>.entry 0
     e.state = .pending ∧ (pending reserved).postFree 0 0 = true ∧ (pending reserved).postRefusal e = none ∧
      (pending reserved).homeBusy (segRuns e.segs) 2 (some 0) = true ∧
      (pending (far false)).homeBusy (segRuns ((pending (far false)).core 0 |>.entry 0).segs) 2 (some 0) = false) := by decide +kernel
theorem wit_fills : (let s := (far false).modCore 0 (fun c => { c with fills := [0x400] })
      0x400 ∈ (s.core 0).fills ∧ s.askBusy (tileOf 0) [(0x10000, 64)] 0 = false ∧ (s.core (s.l1Core 0 0x400)).l1.length < 1024) ∧
    0x400 ∉ ((far false).core 0).fills := by decide +kernel
theorem wit_walks : (let s := (far false).modHub (fun h => { h with walks := [⟨0, 0, 0x10⟩] })
      s.hub.walks.find? (fun w => w.core = 0 && w.page = 0x10000 / 4096) = some ⟨0, 0, 0x10⟩) ∧
    (∀ r ∈ (far false).hub.walks, ¬(r.core = 0 ∧ r.page = 0x10)) := by decide +kernel
theorem wit_command_turn : ((matrixed [command0 0 true] false).modQuad 0 (fun x => { x with round := [0] })).roundLeft 0 = [] ∧
    8 ≤ (((matrixed [command0 0 true] false).modQuad 0 (fun x => { x with ties := 8 })).quad 0).ties := by decide +kernel
/-- The line of s1's page in a range that a RANGESET not yet performed changes. -/
def moving : State := (far false).modHub (fun h => { h with ranges := [(0, ⟨0, 0, some 0, some (0x8000000000010000, 0x10000), []⟩)] })
theorem wit_moving : moving.moving 0x400 = some 0 ∧ (far false).moving 0x400 = none ∧ moving.deferred 0x400 13 none = false ∧
    moving.retriesAt 0x400 13 = false := by decide +kernel
theorem wit_stock_events : (let s := far false
      let slot := s.rangeSlot (64 * 7)
      slot < 7 ∧ s.transient slot (s.dirOf 7).state = false ∧ (invWord (s.dirOf 7).state 2).isNone = true ∧ (invWord (s.dirOf 7).state 0).isSome = true) ∧
    ¬refusing.rangeSlot 0x10000 < 7 := by decide +kernel
theorem wit_suspended : NoSuspended (far false) 0x10000 := fun q hq => by cases hq
theorem wit_table_moves : (withCtx (fun x => { x with ops := [.rangeset 255 1 2] })).toMove 255 = [] := by decide +kernel

theorem wit_save_area : (near.part 0).areaFree = true ∧ ((ganged .requested near).part 0).areaFree = false ∧
    ((hooped (hoop0 .running)).part ((hooped (hoop0 .running)).vf 0).record.part).areaFree = true := by decide +kernel
theorem wit_fused_ending : let s := (hooped (hoop0 .ending)).modQuad 0 (fun x => { x with fused := true })
    (s.quad 0).fused = true ∧ (s.core 0).hoop = some 0 ∧ s.hoop 0 = some (hoop0 .ending) := by decide +kernel
theorem wit_bad_line : (queued 0 false).queue 0 0 = some ⟨1, 0, 0, 0, [], []⟩ ∧ (queued 0 false).launchOk (rec false).toNat = false := by decide +kernel
theorem wit_ticks : near.tickDue = false ∧ (near.modHub (fun h => { h with now := 10000 })).tickDue = true := by decide +kernel
theorem wit_rail_steps : near.hub.now < (near.tile 0).stepAt + 2000 ∧
    (let s := near.modHub (fun h => { h with now := 2000 }); (s.tile 0).stepAt + 2000 ≤ s.hub.now) := by decide +kernel
theorem wit_full_ring : (ringing.poke 0x40000 8 1).ringHeld (ringNumber 0) = [List.replicate 64 1] ∧
    ((ringing.poke 0x40000 8 1).ringWrite (ringNumber 0) (List.replicate 64 1)).isNone = true := by decide +kernel
theorem wit_assigned_quad : (((parted near).modVf 383 (fun x => x)).quad 0).ops = [] ∧
    ∀ m ∈ quadCores 0, (((parted near).modVf 383 (fun x => x)).core m).copies = [] := by decide +kernel

/-- R378, R379: the first entries of the capability list, as the table of R379 gives them. -/
theorem test_capability_list : (fromTo 0 8).map (fun i => State.reset.view (romBase + 8 * i) 8) =
    [0x0001001000000000, 1, 0x0002001000000000, 8, 0x0003001000000000, 1000000000, 0x0010001000000000, imagesVa] := by
  decide +kernel
/-- R265, R267: the image of INV has six states and, for state I and event RD, the word that R267 prints. -/
theorem test_stock_image : State.reset.view (romBase + 0x1000) 1 = 6 ∧
    State.reset.view (romBase + 0x1000 + 0x40) 4 = 0x18014001 := by decide +kernel

/-! Special operands, and values between two codes. -/

theorem wit_float_functions : (∃ a : ℚ, valueOf (num32 0x3F800000) = some a ∧ a ≠ 0 ∧ 0 < a) ∧ (∃ z : ℤ, |z| < 2 ^ 64) ∧ magF 0x80000000 = 0 ∧
    (2 ^ 31 ≤ (0xBF800000 : W32).toNat ∧ ¬isNaN 0xBF800000 ∧ magF 0xBF800000 ≠ 0) ∧ magF 0xFF800000 = 0x7F800000 ∧ isNaN 0xFFC00000 ∧
    rankF 0xBF800000 < rankF 0x80000000 ∧ rankF 0x3F800000 < rankF 0x7F800000 := by
  have h : num32 0x3F800000 = .fin false 0x800000 (-23) := by decide
  refine ⟨⟨_, by rw [h]; rfl, by norm_num, by norm_num⟩, ⟨0, by norm_num⟩, ?_⟩
  unfold isNaN rankF magF; decide
theorem wit_exponents : (∃ a : ℚ, valueOf (num32 0x40000000) = some a ∧ a = (1 : ℤ) + 1 ∧ a = (2 : ℚ) ^ (1 : ℤ)) ∧
    (∃ a : ℚ, valueOf (num32 0x43000000) = some a ∧ 128 ≤ a) ∧ (∃ a : ℚ, valueOf (num32 0xC3180000) = some a ∧ a < -151) ∧
    ∃ a : ℚ, valueOf (num32 0x3F400000) = some a ∧ (∀ k : ℤ, a ≠ k) ∧ -151 ≤ a ∧ a ≤ 127 ∧ 0 < a ∧ ∀ k : ℤ, a ≠ (2 : ℚ) ^ k := by
  have h1 : num32 0x40000000 = .fin false 0x800000 (-22) := by decide
  have h2 : num32 0x43000000 = .fin false 0x800000 (-16) := by decide
  have h3 : num32 0xC3180000 = .fin true 0x980000 (-16) := by decide
  have h4 : num32 0x3F400000 = .fin false 0xC00000 (-24) := by decide
  refine ⟨⟨_, by rw [h1]; rfl, by norm_num, by norm_num⟩, ⟨_, by rw [h2]; rfl, by norm_num⟩, ⟨_, by rw [h3]; rfl, by norm_num⟩, 3 / 4,
    by rw [h4]; simp only [valueOf]; norm_num, fun k h => ?_, by norm_num, by norm_num, by norm_num, fun k h => ?_⟩
  · have : (3 : ℤ) = k * 4 := by exact_mod_cast (by linarith : (3 : ℚ) = k * 4)
    omega
  · rcases le_or_gt 0 k with hk | hk
    · have : (1 : ℚ) ≤ (2 : ℚ) ^ k := one_le_zpow₀ (by norm_num) hk
      linarith
    · have : (2 : ℚ) ^ k ≤ (2 : ℚ) ^ (-1 : ℤ) := zpow_le_zpow_right₀ (by norm_num) (by omega)
      rw [← h] at this
      norm_num at this
theorem wit_formats : fmtBinary8 0x23 = true ∧ fmtBinary8 0x33 = true ∧ fmtBinary8 0x3B = true ∧ 0x80 < 256 ^ fmtBytes 0x33 ∧
    (∃ v, valueOf (elemNum 0x33 1) = some v) ∧ (0x33 : BitVec 6).getLsbD 4 = true ∧ (0x23 : BitVec 6).getLsbD 4 = false := by
  have h : elemNum 0x33 1 = .fin false 1 (-17) := by decide
  exact ⟨by decide, by decide, by decide, by decide, ⟨_, by rw [h]; rfl⟩, by decide, by decide⟩
theorem wit_far_values : ∃ v t : ℚ, valueOf (num32 0x7F000000) = some v ∧ valueOf (elemNum 2 0x7BFF) = some t ∧ 2 * t ≤ |v| := by
  have h : num32 0x7F000000 = .fin false 0x800000 104 := by decide
  have k : elemNum 2 0x7BFF = .fin false 2047 5 := by decide
  exact ⟨_, _, by rw [h]; rfl, by rw [k]; rfl, by norm_num⟩
theorem wit_stochastic : ∃ v lo hi : ℚ, valueOf (num32 0x3F880000) = some v ∧ valueOf (elemNum 0x33 0x40) = some lo ∧
    valueOf (elemNum 0x33 0x41) = some hi ∧ 0x40 < 0x7F ∧ lo < |v| ∧ |v| < hi ∧ 0 ≤ v := by
  have h : num32 0x3F880000 = .fin false 0x880000 (-23) := by decide
  have k : elemNum 0x33 0x40 = .fin false 4 (-2) := by decide
  have l : elemNum 0x33 0x41 = .fin false 5 (-2) := by decide
  exact ⟨_, _, _, by rw [h]; rfl, by rw [k]; rfl, by rw [l]; rfl, by norm_num, by norm_num, by norm_num, by norm_num⟩

/-! Vector loads, poisoned leases, and homes that do not take a write. -/

theorem wit_no_past : (two near).cx.past = [] ∧ (two near).cx.ldas = [] := by decide +kernel
/-- A VF that may not sprint. -/
def still (s : State) : State := s.modVf 0 (fun v => { v with sprint := false })
theorem wit_poisoned_leases : ((still (spoilt 0x1200)).vf 0).sprint = false ∧ (Instr.sprint 1 1 2).accepts (still (spoilt 0x1200)).cx.chain = true ∧
    (Instr.unsprint 1).accepts (still (spoilt 0x1200)).cx.chain = true ∧ ((still (spoilt 0x1200)).regPoison (guardReg 1)).isSome = true ∧
    ((still (spoilt 0x1200)).quad 0).leased = false ∧ ((still (spoilt 8)).readPoison (.sprint 7 1 2)).isSome = true ∧
    (still (spoilt 8)).holds 7 = true ∧ (Instr.sprint 1 1 2).mayIdle = false := by decide +kernel
/-- The culture of `refusing`, whose action accepts every event and takes no bytes (DACT 0). -/
def ignoring : State := refusing.modHub (fun h => { h with
  cultures := [(7, { state := .loaded, owner := 0, ns := 1, name := 0, states := [], actions := (List.range 16).map (fun j => (j, 1)) })] })
theorem wit_takes : (∀ ev ∈ [1, 2, 3, 4, 6, 7], (far false).takes 0x10000 ev = true ∧ near.takes (quadLocal 0 + 0x80000) ev = true) ∧
    (∀ ev ∈ [2, 3, 4, 6, 7], ignoring.takes 0x10000 ev = false ∧ ignoring.refuses 0x10000 ev = false) ∧ Quiet ignoring :=
  ⟨by decide +kernel, by decide +kernel, quiet_of (by decide +kernel)⟩

/-! Engines: operations, copies, and accesses that meet a retry. -/

/-- Two rows of two FP32 elements at the word near, read or written by context 0 of core 0, with scale codes given. -/
def tile2 : Operand := ⟨none, false, 0x7FFFFFE80000, 8, ⟨0, false, false, 0, 1⟩, [(0x7FFFFFE80, quadLocal 0 + 0x80000)], []⟩
def mxOp2 (kind : MxKind) (sc : W64) : MxOp :=
  { kind := kind, win := ⟨0, 2, 2, 2, 0⟩, a := if kind = .zero then none else some tile2, b := if kind = .mul ∨ kind = .muls then some tile2 else none,
    sc := sc, rm := 1, prog := none, source := .ctx 0 0, vf := 0, tag := 0, old := [] }
def finishing (o : MxOp) : State := near.modQuad 0 (fun x => { x with ops := [o] })
theorem wit_arithmetic : ∀ kind ∈ [MxKind.zero, .wr, .rd, .mul, .muls], ∀ n ∈ [0x7F7F, 0x1FF7F],
    let sc : W64 := BitVec.ofNat 64 n
    let s := finishing (mxOp2 kind sc)
    (s.quad 0).ops[0]? = some (mxOp2 kind sc) ∧ s.opReady 0 (mxOp2 kind sc) = true ∧ s.poison = [] ∧ (s.quad 0).accPoison = [] ∧
      (s.quad 0).thresh = 0 ∧ s.opBusy 0 (mxOp2 kind sc) = [] := by decide +kernel
theorem wit_elements : OnPages tile2 2 2 ∧ NoHostWatch near ∧ (∀ r < 2, ∀ c < 2, ∀ j < 4, isLocal (operandPa tile2 (elemVa tile2 r c) 0 + j) = true ∧
      near.isProtected (operandPa tile2 (elemVa tile2 r c) 0 + j) = false ∧ near.isReserved (operandPa tile2 (elemVa tile2 r c) 0 + j) = false ∧
      near.isModeByte (operandPa tile2 (elemVa tile2 r c) 0 + j) = false) ∧
    (let all : List (Nat × Nat) := [(0, 0), (0, 1), (1, 0), (1, 1)]
     let place (p : Nat × Nat) : Nat := operandPa tile2 (elemVa tile2 p.1 p.2) 0
     ∀ p ∈ all, ∀ q ∈ all, p = q ∨ place p + 4 ≤ place q ∨ place q + 4 ≤ place p) := by
  refine ⟨?_, noHostWatch_of (by decide +kernel), by decide +kernel, by decide +kernel⟩
  unfold OnPages; decide +kernel
theorem wit_pieces : (∀ r < 2, ∀ l < 2, elemCode near tile2 r l = 0) ∧ fld (0x7F7F : W64) 7 0 ≠ 255 ∧ fld (0x1FF7F : W64) 15 8 = 255 ∧
    valueOf (elemNum 1 0) = some 0 ∧ valueOf (num32 0) = some 0 := by
  refine ⟨by decide +kernel, by decide, by decide, ?_, ?_⟩
  · rw [show elemNum 1 0 = .fin false 0 (-149) by decide]; norm_num [valueOf]
  · rw [show num32 0 = .fin false 0 (-149) by decide]; norm_num [valueOf]
theorem wit_unready : (finishing { op0 with b := some ⟨some 1, false, 0, 0, ⟨0, false, false, 0, 0⟩, [], []⟩ } |>.modQuad 0 (fun x =>
    { x with slots := [(1, ⟨0, 0, ⟨0, false, false, 0, 0⟩, [], [], false, false, false⟩)] })).opReady 0
      { op0 with b := some ⟨some 1, false, 0, 0, ⟨0, false, false, 0, 0⟩, [], []⟩ } = false := by decide +kernel

/-- A copy of `n` bytes, in rows, within the local window or from HBM to HBM. -/
def shadow (src dst : W64) (n rows : Nat) (stride : W64) : Shadow :=
  ⟨src, dst, BitVec.ofNat 64 n, BitVec.ofNat 64 rows, stride, stride, 0, 0⟩
def copyOf (r : Shadow) : Copy := { copy0 0 false true with regs := r }
theorem wit_sector : let c := copyOf (shadow 0x10000 0x20010 0x30 1 0)
    let s := (far false).setCopy 0 0 c
    s.copyAt 0 0 = some c ∧ c.regs.rows = 1 ∧ 0 < c.regs.bytes.toNat ∧ c.regs.dst.toNat % 64 + c.regs.bytes.toNat ≤ 64 ∧
      c.regs.src.toNat % 4096 + c.regs.bytes.toNat ≤ 4096 ∧ s.poison = [] ∧ s.hub.waits = [] ∧
      (s.enginePlace (engineOf 0 0) accR.global 0x10000).2 = .inl 0x10000 ∧
      (let u := (s.enginePlace (engineOf 0 0) accR.global 0x10000).1
       let v := (u.engineRead 0 0 [(0x10000, 0x30)]).enginePlace (engineOf 0 0) accW.global 0x20010
       v.2 = .inl 0x20010 ∧ v.1.refuses 0x20010 2 = false ∧ v.1.takes 0x20010 2 = true) ∧ isCfg 0x20010 = false ∧
      (∀ j < 0x30, s.isProtected (0x20010 + j) = false ∧ s.isReserved (0x20010 + j) = false ∧ s.isModeByte (0x20010 + j) = false) := by
  decide +kernel
theorem wit_rows : let c := copyOf (shadow 0x7FFFFFE80000 0x7FFFFFE90000 8 2 0x40)
    let s := near.setCopy 0 0 c
    s.copyAt 0 0 = some c ∧ (∀ j < 16, attrAccepted (attrOf ((s.quad (quadOf 0)).attr j)) localWin 0x20000 = true) ∧ c.regs.rows.toNat = 2 ∧
      (∀ r < 2, (c.regs.src + BitVec.ofNat 64 r * c.regs.srcStride).toNat = 0x7FFFFFE80000 + 0x40 * r ∧
        (c.regs.dst + BitVec.ofNat 64 r * c.regs.dstStride).toNat = 0x7FFFFFE90000 + 0x40 * r) ∧ localWin ≤ 0x7FFFFFE80000 ∧
      0x7FFFFFE90040 + 8 ≤ localWin + Memory.localSize ∧ (∀ r < 2, ∀ j < 8, let a := quadLocal 0 + (0x7FFFFFE90000 + 0x40 * r - localWin) + j
        s.isProtected a = false ∧ s.isReserved a = false ∧ s.isModeByte a = false) := by
  decide +kernel
theorem wit_copy_counter : (shadow 0 0 0 0 0).mode.getLsbD 0 = false ∧ (1 : W64).getLsbD 0 = true ∧
    ((far false).enginePlace (engineOf 0 0) accRW.global 0x10000).2 = .inl 0x10000 ∧
    (∀ j < 8, (far false).isProtected (0x10000 + j) = false ∧ (far false).isReserved (0x10000 + j) = false ∧ (far false).isModeByte (0x10000 + j) = false) := by
  decide +kernel
/-- The line of s1's page reserved: an engine's access of it is made again. -/
theorem wit_busy_engines : (let c := { copyOf (shadow 0x10000 0x20000 8 1 0) with regs := { shadow 0x10000 0x20000 8 1 0 with counter := 0x10000 } }
      let s := reserved.setCopy 0 0 c
      s.copyAt 0 0 = some c ∧ c.regs.counter ≠ 0 ∧ c.added = false ∧ s.copyTurn 0 c = true ∧
        s.copyBusy 0 0 ++ s.addBusy (engineOf 0 0) c.regs.counter.toNat ≠ []) ∧
    ((copying (copy0 8 true true)).copyBusy 0 0 ++ (copying (copy0 8 true true)).addBusy (engineOf 0 0) 8 = []) ∧
    (copying (copy0 0 false true)).copyBusy 0 0 = [] ∧
    (let o := { op0 with a := none, source := .command 0x10000 }
     let s := reserved.modQuad 0 (fun x => { x with ops := [o] })
     (s.quad 0).ops[0]? = some o ∧ s.opReady 0 o = true ∧ s.opBusy 0 o ≠ []) ∧
    (let f : FetchSlot := ⟨0x10000, 64, ⟨0, false, false, 0, 0⟩, [(0x10, 0x10000)], [], false, false, true⟩
     (∀ s ∈ [reserved, far false], mapGet ((s.modQuad 0 (fun x => { x with slots := [(0, f)] })).quad 0).slots 0 = some f) ∧
       reserved.engineBusy (tileOfQuad 0) f.runs 0 ≠ [] ∧ (far false).engineBusy (tileOfQuad 0) f.runs 0 = []) ∧
    (far false).engineBusy 0 [(0x10000, 8)] 0 = [] := by decide +kernel
theorem wit_missing_pages : let c := { copy0 0 true true with missing := [⟨0x10, 0x1B, 3⟩] }
    (near.setCopy 0 0 c).copyAt 0 0 = some c ∧ c.missing ≠ [] := by decide +kernel
theorem wit_senders : ((near.core 0).hoop = none ∧ (near.ctx 0 0).st ≠ .free) ∧ (0x24 : BitVec 6) ≠ 0x18 ∧ (0x24 : BitVec 6) ≠ 0x21 := by decide +kernel
theorem wit_overdue : (let s := (probed [5] none).modHub (fun h => { h with now := 1000 })
      ((s.dirOf 7).wait.filter (fun x => ((mapGet (s.dirOf 7).sent x).getD (0, 0)).1 + (if x < 48 && (s.tile x).gated then 4000 else 1000) ≤ s.hub.now)) = [5]) ∧
    ((probed [5] none).dirOf 7).wait.filter (fun x => ((mapGet ((probed [5] none).dirOf 7).sent x).getD (0, 0)).1 + 1000 ≤ (probed [5] none).hub.now) = [] ∧
    (((probed [5] none).setDir 7 { (probed [5] none).dirOf 7 with drops := [5] }).dirOf 7).drops.contains 5 = true := by decide +kernel

/-! Steps of a core, its homes, and the machine's turns. -/

/-- Arrival loads of a scalar and of two lanes, of the line of s1's page. -/
def ldaOf (vec : Bool) : Lda :=
  { vec := vec, dbl := true, dst := 4, ctr := 3, ws := near.ws, va := 0x10000, ord := 1, rm := 1, bytes := if vec then [] else [(0x10000, 8)],
    elems := if vec then [⟨0, 0x10000, 0x10000, ⟨1, false, false, 0, 1⟩, none⟩, ⟨31, 0x10004, 0x10004, ⟨1, false, false, 0, 1⟩, some (0x10040, 0x10040)⟩] else [],
    cache := 0, own := [], old := [] }
theorem wit_landings : (∀ v ∈ [true, false], (∀ s ∈ [reserved, far false], (s.modCx (fun x => { x with ldas := [ldaOf v] })).cx.ldas[0]? = some (ldaOf v)) ∧
      reserved.askBusy (tileOf 0) (ldaOf v).reads 0 = true ∧ (far false).askBusy (tileOf 0) (ldaOf v).reads 0 = false ∧
      (ldaOf v).own = [] ∧ (ldaOf v).old = [] ∧ (ldaOf v).ctr < 4 ∧ (ldaOf v).dst < 32) ∧
    ((ldaOf true).elems.map (fun e => e.lane)).Nodup ∧ (∀ e ∈ (ldaOf true).elems, e.lane < 32) := by decide +kernel
theorem wit_die_walks : (let s := (far false).modHub (fun h => { h with walks := [⟨0, 0, 0x10⟩] });
      ((s.dieWalks (dieOf 0)).take 64).find? (fun w => w.core = 0 && w.page = 0x10000 / 4096) = some ⟨0, 0, 0x10⟩) ∧
    (let s := (far false).modHub (fun h => { h with walks := List.replicate 64 ⟨1, 0, 0x11⟩ ++ [⟨0, 0, 0x10⟩] });
      ((s.dieWalks (dieOf 0)).take 64).find? (fun w => w.core = 0 && w.page = 0x10000 / 4096) = none) := by decide +kernel
theorem wit_park_ge_served : ((near.place ⟨0, 0, false, false, some (quadOf 0)⟩ accR.config 0x7FFFFFE80000).1).askBusy (tileOf 0) [(quadLocal 0 + 0x80000, 8)] 0 = false := by
  decide +kernel
/-- A store of one byte of s1's page, of one of the page of `refusing`. -/
def byteStore : PendStore := ⟨.plain, 1, 0, false, [], 0, [⟨0x10000, 0x10000, [1]⟩]⟩
theorem wit_store_effects : (∀ s ∈ [far false, refusing], isCfg 0x10000 = false ∧ s.isReserved 0x10000 = false ∧ s.isModeByte 0x10000 = false ∧ s.hub.waits = []) ∧
    ((far false).refuses 0x10000 byteStore.event = false ∧ (far false).takes 0x10000 byteStore.event = true) ∧ refusing.refuses 0x10000 byteStore.event = true ∧
    (far false).takes 0x10000 2 = true := by decide +kernel
theorem wit_segments_landing : (let s := filling.modSlot 0 1 (fun x => { x with frame := 0x10000 }); ((s.core 0).slot 1).frame = 0x10000 ∧
      s.engineBusy (tileOf 0) [(0x10000, 4096)] 0 = []) ∧
    (let s := reserved.modSlot 0 1 (fun x => { x with state := .filling, frame := 0x10000 }); ((s.core 0).slot 1).state = .filling ∧
      s.engineBusy (tileOf 0) [(((s.core 0).slot 1).frame, 4096)] 0 ≠ []) := by decide +kernel

/-- A line of the page of `refusing` whose culture waits for DATA. -/
theorem wit_homes_at_rest : (let s := far false
      (∀ ev ∈ [0, 1, 2, 3, 10, 11], s.deferred 0x400 ev (some 0) = false) ∧ s.mayEvict 0 0x400 = true ∧ s.flushBusy 0x400 none = false) ∧
    reserved.flushBusy 0x400 none = true ∧ (let s := (far false).takeLine 0 0x400; s.mayEvict 0 0x400 = true ∧ s.dirtyIn 0 0x400 = false) ∧
    (near.dirtyIn 0 7 = false) := by decide +kernel
theorem wit_retried : reserved.homeBusy [(0x10000, 64)] 5 (some 48) = true ∧ (far false).takes 0x10000 6 = true ∧ (far false).takes 0x10000 7 = true ∧
    (∀ ev ∈ [5, 6, 7], reserved.homeBusy [(0x10000, 8)] ev (some 48) = true ∧ (far false).homeBusy [(0x10000, 8)] ev (some 48) = false) ∧
    NoSuspended (far false) (0x10000 / 8 * 8) := ⟨by decide +kernel, by decide +kernel, by decide +kernel, by decide +kernel, fun q hq => by cases hq⟩
/-- A RANGESET whose line another context reserves, so that it waits. -/
theorem wit_moves : (let s := reserved.modHub (fun h => { h with ranges := [(255, ⟨0x8000000000010000, 0x10000, some 0, some (0, 0), []⟩)] })
      0x400 ∈ s.toMove 255 ∧ s.deferred 0x400 13 none = true) := by decide +kernel

theorem wit_turn : (let s : State := { (placed (encode (.addi 7 3 1 0x3FF)).toNat) with wrote := [], schedule := [] }
      let s0 := if s.roundLeft 0 = [] then s.newCycle 0 else s
      let b := (s0.modQuad 0 (fun y => { y with round := 0 :: y.round, grants := [] ++ y.grants })).expire 0
      s0.dueCore 0 = some 0 ∧ (b.core 0).runs = true ∧ (b.core 0).cyc * (b.quad 0).fduty / 16 < ((b.core 0).cyc + 1) * (b.quad 0).fduty / 16 ∧
        ((b.core 0).ctx 0 0).st = .ready ∧ (4 : Int) ≤ (b.core 0).cyc - ((b.core 0).ctx 0 0).lastIssue) := by decide +kernel
/-- The same machine at the state in which the instruction issues, and with the bank of s1 taken. -/
def issuing (g : List Nat) : State :=
  let b := ({ placed (encode (.addi 7 3 1 0x3FF)).toNat with schedule := [] } : State).modQuad 0 (fun y => { y with round := 0 :: y.round, grants := g ++ y.grants })
  { (((b.tickCore 0).modCore 0 (fun c => { c with last := 0 })).modCtx 0 0 (fun y => { y with lastIssue := 0, yielded := false, owed := none })) with cur := ⟨0, 0⟩ }
theorem wit_banks : ((issuing []).requests (.addi 7 3 1 0x3FF)).Nodup ∧ (∀ b ∈ (issuing []).requests (.addi 7 3 1 0x3FF), b ∉ (issuing []).taken) ∧
    (let l := (issuing []).requests (.addi 7 3 1 0x3FF); ∃ b ∈ (issuing l).requests (.addi 7 3 1 0x3FF), b ∈ (issuing l).taken) ∧
    (issuing []).cx.owed = none ∧ ((issuing []).modCx (fun x => { x with owed := some [3] })).cx.owed = some [3] := by decide +kernel
/-- Turns on which core 0 does not issue: FDUTY 8 on an even cycle, or no context READY. -/
theorem wit_idle_turns : (let c := (placed 0).core 0; c.runs = true ∧ ¬(c.cyc * 8 / 16 < (c.cyc + 1) * 8 / 16)) ∧
    (let s := (placed 0).modCtx 0 0 (fun x => { x with st := .held, hold := some 0 }); (s.core 0).runs = true ∧ (∀ y ∈ (s.core 0).ctxs, y.2.st ≠ .ready) ∧
      ∀ j < 16, ((s.core 0).ctx 0 j).st ≠ .ready) ∧
    Chosen 15 (fun j => j = 0) (fun _ => false) 0 [] ∧ Chosen 15 (fun j => j = 0 || j = 3) (fun j => j = 0) 3 [0] ∧
    Chosen 15 (fun j => j = 0 || j = 3) (fun _ => true) 3 [0] ∧ Chosen 15 (fun j => j = 3) (fun _ => true) 3 [] := by
  refine ⟨by decide +kernel, by decide +kernel, ?_, ?_, ?_, ?_⟩ <;> unfold Chosen <;> decide
/-- A handler's turn on the service core of tile 0: HENTRY in a page that translates, and in one that does not. -/
def serving (s : State) : State :=
  ({ s with schedule := [⟨.service 0, 1, none⟩] } : State).modTile 0 (fun x => { x with away := [(0, 0)] }) |>.modVf 0 (fun v =>
    { v with record := { v.record with hentry := 0x10000 } })
theorem wit_service_turns : (∀ s ∈ [serving (mapped false), serving ready], (s.tile 0).away.take 16 = [(0, 0)] ∧ s.hub.started = true ∧ s.tickDue = false ∧
      s.schedule = [⟨.service 0, 1, none⟩] ∧ (4 : Int) ≤ (s.tile 0).cyc - (mapGet (s.tile 0).issued 0).getD (-4)) ∧
    ((serving (mapped false)).place (serving (mapped false)).me accX 0x10000).2 = .at 0x10000 ⟨0, false, false, 0, 0⟩ false ∧
    ((serving ready).place (serving ready).me accX 0x10000).2 = .bad 0x10 := by decide +kernel
/-- What TRET and WSPSW refuse: a slot that is not LANDED, a workspace that the test refuses, a PC of more than 14 bits. -/
theorem wit_refused_returns : (handler.priv = true ∧ ((handler.core 0).slot (handler.tpc % 2 ^ 14 / 1024)).state ≠ .landed) ∧
    (let s := (landed0 handler).poke ((landed0 handler).ws + 0x1274) 4 1;
      s.priv = true ∧ ((s.core 0).slot (s.tpc % 2 ^ 14 / 1024)).state = .landed ∧ s.workspaceOk s.twsp = false) ∧
    (let s := regs (landed0 ready) [(2, 0x4000), (3, 0x400)];
      s.priv = false ∧ s.workspaceOk (s.getS 1).toNat = true ∧ s.item 0x1220 8 = 0 ∧ 2 ^ 14 ≤ (s.getS 2).toNat ∧ (s.getS 3).toNat < 2 ^ 14 ∧
        ((s.core 0).slot ((s.getS 3).toNat / 1024)).state ≠ .landed) := by decide +kernel

/-! The hub: launches, queues, gang switches, configuration. -/

theorem wit_loads : (let s := hooped (hoop0 .placed); ((hoop0 .placed).cores.filter (fun m => !s.segmentIn m record0)).head? = some 0 ∧
      (let u := (s.enginePlace (engineOf 0 0) accX 0x10000).1; u.engineBusy (tileOf 0) [(0x10000, 4096)] 0 = [] ∧ u.segmentPoison 0x10000 = [])) ∧
    (let s := { hooped (hoop0 .placed) with poison := [granule 0x10008] }; (s.enginePlace (engineOf 0 0) accX 0x10000).2 = .inl 0x10000 ∧
      ((s.enginePlace (engineOf 0 0) accX 0x10000).1).segmentPoison 0x10000 ≠ []) ∧
    (let s := holding (hoop0 .placed) reserved; (s.enginePlace (engineOf 0 0) accX 0x10000).2 = .inl 0x10000 ∧
      ((s.enginePlace (engineOf 0 0) accX 0x10000).1).engineBusy (tileOf 0) [(0x10000, 4096)] 0 ≠ []) ∧
    (∀ c ∈ ((hooped (hoop0 .placed)).core 0).ctxs, c.2.ops = []) := by decide +kernel
/-- The hoop with its DONE word on the line of s1's page. -/
def doneThere : Hoop := { hoop0 .ending with record := { record0 with done := 0x10000 } }
theorem wit_done_adds : (let s := hooped (hoop0 .ending); let u := (s.enginePlace (hubOf 0) accRW.global 0x20000).1
      u.poison = [] ∧ u.refuses 0x20000 3 = false ∧ u.takes 0x20000 3 = true ∧ u.homeBusy [(0x20000, 8)] 3 (some 48) = false ∧ u.hub.waits = [] ∧ u.hub.susps = []) ∧
    (let s := holding doneThere reserved; s.hoop 0 = some doneThere ∧ (∀ m ∈ s.cores, m.2.copies = []) ∧
      (s.enginePlace (hubOf 0) accRW.global 0x10000).2 = .inl 0x10000 ∧
      ((s.enginePlace (hubOf 0) accRW.global 0x10000).1).homeBusy [(0x10000, 8)] 3 (some 48) = true) := by decide +kernel

/-- Queues 0 and 1 of VF 0 in partition 0: the first with a deficit given, the second with one record and a deficit. -/
def contended (now : Nat) (d e : Int) (s : State) : State :=
  (parted s).modHub (fun h => { h with now := now, queues := [(0, ⟨1, 0, d, 0, [], []⟩), (1, ⟨2, 0, e, 0, [record0], []⟩)] })
theorem wit_charges : near.hub.now % 1000 = 0 ∧ near.hub.charged = near.hub.now ∧ (contended 1001 0 0 near).hub.now % 1000 ≠ 0 ∧
    ((contended 1000 0 0 near).hub.now % 1000 = 0 ∧ (contended 1000 0 0 near).hub.charged ≠ (contended 1000 0 0 near).hub.now ∧
      (contended 1000 0 0 near).queue 0 0 = some ⟨1, 0, 0, 0, [], []⟩) := by decide +kernel
theorem wit_refills : (let s := contended 0 (-5) (-200) near
      s.ringOf 0 = [(0, ⟨1, 0, -5, 0, [], []⟩), (1, ⟨2, 0, -200, 0, [record0], []⟩)] ∧ (∃ r ∈ s.ringOf 0, r.2.records ≠ []) ∧
        (∀ r ∈ s.ringOf 0, r.2.weight ≥ 1 ∧ (r.2.records ≠ [] → r.2.deficit ≤ 0)) ∧ s.queueRuns 0 = false) ∧
    (contended 0 (-5) (-200) near).hub.queues.Pairwise (fun a b => a.1 < b.1) ∧
    (∃ r ∈ (contended 0 0 5 near).ringOf 0, r.2.records ≠ [] ∧ r.2.deficit > 0) ∧ (∀ r ∈ near.ringOf 0, r.2.records = []) ∧
    (contended 0 (-5) 5 (holding (hoop0 .running) near)).queueRuns 0 = true := by decide +kernel
theorem wit_next_launch : (contended 0 0 5 near).nextLaunch 0 = some (1, ⟨2, 0, 5, 0, [record0], []⟩, record0, (0, 0)) ∧
    (contended 0 0 0 near).nextLaunch 0 = none := by decide +kernel
theorem wit_slices : (let s := contended 5 0 5 (holding (hoop0 .running) near)
      s.hoop 0 = some (hoop0 .running) ∧ (hoop0 .running).sliceEnd ≤ s.hub.now ∧ (s.part 0).areaFree = true ∧
        s.queue 0 0 = some ⟨1, 0, 0, 0, [], []⟩ ∧ s.displacer 0 (hoop0 .running) = some (record0, (0, 0))) ∧
    (let s := ganged .requested (contended 5 0 5 (holding (hoop0 .running) near)); (s.part 0).areaFree = false) ∧
    (let s := contended 5 7 5 (holding (hoop0 .running) near); ∀ y, s.queue 0 0 = some y → y.deficit > 0) := by
  refine ⟨by decide +kernel, by decide +kernel, fun y hy => ?_⟩
  have h : (contended 5 7 5 (holding (hoop0 .running) near)).queue 0 0 = some ⟨1, 0, 7, 0, [], []⟩ := by decide +kernel
  rw [h] at hy; cases hy; decide

/-- A hoop of four cores of quad 0, two contexts each, of VF 3 in partition 1, which holds quads 0 and 5. -/
def partOf : PartRecord := { quads := [0, 5], save := 0x100000, saveSize := 0x1000000, evring := 0, ceil := 2, taskArea := 0x4000000, taskSize := 0x100000 }
def hoop4 (st : HoopState) : Hoop := { hoop0 st with record := { record0 with w := 2, h := 2, nctx := 2, vf := 3, queue := 1 } }
def switched (st : HoopState) (g : Gang) : State :=
  let s := State.reset.modPart 1 (fun x => { x with record := partOf, seq := 7, gang := some g })
  let s := s.modVf 3 (fun x => { x with record := { x.record with part := 1 } })
  let s := [0, 5].foldl (fun t q => t.modQuad q (fun x => { x with part := some 1, vf := 3, accMem := [(3, 77), (65535, 9)] })) s
  let s := s.modHub (fun h => { h with now := 50000, hoops := [(4, hoop4 st)], queues := [(25, ⟨1, 0, 0, 0, [], []⟩)] })
  let s := (quadCores 0).foldl (fun t n => t.modCore n (fun c => { c with hoop := some 4, hoopS := 0x20202 })) s
  (quadCores 0).foldl (fun t n => (fromTo 0 2).foldl (fun u k => u.modCtx n k (fun x => { x with st := .stopped, prior := .ready, stopGang := true })) t) s
def stopped (slice : Option Nat) : Gang := { Gang.request 40000 [0] slice with phase := .stopped, hoops := [4], start := 45000 }

theorem wit_switches : ∀ sl ∈ [none, some 4], let s := switched .switched (stopped sl)
    (s.part 1).gang = some (stopped sl) ∧ (∀ q ∈ (stopped sl).needed, q ∈ partOf.quads) ∧ (stopped sl).needed.Nodup ∧
      (∀ n ∈ quadCores 0, s.switches (stopped sl) n = true) ∧ s.shared (stopped sl) 0 = false := by decide +kernel
theorem wit_drained : ∀ sl ∈ [none, some 4], let s := switched .switched (stopped sl)
    let d := (s.gangQuads 1 (stopped sl)).foldl (fun t q => t.drainQuad q) ((s.gangHoops (stopped sl)).foldl (fun t x => t.drainHoop x.1 x.2) s)
    d.poison = [] ∧ d.leasedQuads = [] ∧ (∀ q ∈ [0], (d.quad q).accPoison = [] ∧ (d.quad q).accMem = [(3, 77), (65535, 9)]) ∧
      (∀ q ∈ partOf.quads, ∀ n ∈ quadCores q, ∀ k < 16, (d.ctx n k).pend.length ≤ 8) ∧ d.hoop 4 = some (hoop4 .switched) ∧
      d.queue 3 1 = some ⟨1, 0, 0, 0, [], []⟩ := by decide +kernel
theorem wit_no_rings (g : Gang) (st : HoopState) : NoRings (switched st g) := by
  have hv : ∃ x, (switched st g).hub.vfs = [(3, x)] ∧ x.record.fring = 0 ∧ x.record.hwring = 0 := ⟨_, rfl, rfl, rfl⟩
  have hp : ∃ x, (switched st g).hub.parts = [(1, x)] ∧ x.record.evring = 0 := ⟨_, rfl, rfl⟩
  obtain ⟨x, hx, hf, hw⟩ := hv
  obtain ⟨y, hy, he⟩ := hp
  refine ⟨fun v => ?_, fun p => ?_⟩
  · by_cases h : v = 3
    · subst h; simp [State.vf, hx, mapGet, hf, hw]
    · simp [State.vf, hx, mapGet, Ne.symm h, VfState.reset]
  · by_cases h : p = 1
    · subst h; simp [State.part, hy, mapGet, he]
    · simp [State.part, hy, mapGet, Ne.symm h, PartState.reset]
theorem wit_area : AreaInHbm partOf := by
  refine ⟨fun a h k => ?_, by decide, by decide⟩
  simp only [partOf, List.length_cons, List.length_nil] at h k
  have : a < hbmEnd := by simp only [hbmEnd]; omega
  simpa [isHbm] using this
theorem wit_save_poison : ((switched .switched (stopped none)).modQuad 0 (fun x => { x with accPoison := [5] })).savePoison (sectionOf partOf 0) 0 =
    some (sectionOf partOf 0 + 0x6028) ∧ ((switched .switched (stopped none)).leasedQuads = []) := by decide +kernel
theorem wit_slice_stops : (let g := Gang.request 40000 [0] (some 4); let s := switched .running g
      (s.part 1).gang = some g ∧ g.phase = .requested ∧ g.time ≤ s.hub.now ∧ g.slice = some 4 ∧ s.hoopsOf 1 .running = [(4, hoop4 .running)]) ∧
    (let g := Gang.request 40000 [0] (some 9); ∀ r ∈ (switched .running g).hoopsOf 1 .running, r.1 ≠ 9) ∧
    (let g := Gang.request 60000 [0] none; (switched .running g).hub.now < g.time) := by decide +kernel
/-- The switch saved, under number 8: what the device keeps of quad 0 and its cores, with COMMIT and the records of a context. -/
def saved (seq : Nat) : State :=
  let s := switched .switched (stopped none)
  let g : Gang := { stopped none with phase := .saved, seq := 8, quads := [(0, s.quad 0)], cores := (quadCores 0).map (fun n => (n, s.core n)) }
  let t := ((s.setGang 1 (some g)).modQuad 0 (fun x => { x with part := none })).poke 0x100000 8 (2 ^ 63 + seq)
  (quadCores 0).foldl (fun u n => (fromTo 0 2).foldl (fun v k => v.poke (recordOf partOf n k + 0x10) 1 1) u) t
theorem wit_resumes : ∀ seq ∈ [8, 9], ∃ g, ((saved seq).part 1).gang = some g ∧ g.phase = .saved ∧ g.slice = none ∧ (saved seq).mayResume 1 g = true ∧
    (saved seq).resumePoison 1 g = none ∧ ((saved seq).peek partOf.save 8 = 2 ^ 63 + g.seq.toNat ↔ seq = 8) ∧
    g.quads.map (fun q => q.1) = [0] ∧ g.cores.map (fun c => c.1) = quadCores 0 ∧
    (∀ q ∈ g.quads, q.1 ∈ partOf.quads ∧ ((saved seq).quad q.1).ops = [] ∧ ∀ n ∈ quadCores q.1, ((saved seq).core n).copies = []) ∧
    (∀ c ∈ g.cores, ∀ k ∈ c.2.ctxs, k.1 < 16 ∧ k.2.pend = [] ∧ k.2.migrate = false ∧ (saved seq).peek (recordOf partOf c.1 k.1 + 0x11) 1 = 0) ∧
    (∀ x ∈ (saved seq).gangHoops g, x.2.crossed = [] ∧ x.2.records = [] ∧ ∀ n ∈ x.2.cores, (mapGet g.cores n).isSome = true) ∧
    ((mapGet g.cores 0).bind (fun c => mapGet c.ctxs 0)).any (fun x => decide (x.prior ≠ .away) && !x.stopDebug && !x.stopTrap) = true ∧
    (saved seq).peek (recordOf partOf 0 0 + 0x10) 1 = 1 := by
  intro seq hs
  simp only [List.mem_cons, List.not_mem_nil, or_false] at hs
  rcases hs with rfl | rfl <;> exact ⟨_, rfl, by decide +kernel⟩
theorem wit_poisoned_resume : (let s := { saved 8 with poison := [granule 0x100000] }; ((s.part 1).gang.map (fun g => (s.resumePoison 1 g).isSome && s.mayResume 1 g)) = some true) := by
  decide +kernel

theorem wit_reassignments : (let s := (parted near).modVf 383 (fun x => x); (s.quad 0).vf ≠ 383 ∧ (s.quadOps 0).opsEnded 0 = true) ∧
    (let s := ((parted reserved).modVf 383 (fun x => x)).modCtx 0 0 (fun x => { x with ops := [.flush 0x400 0 0] });
      (s.quad 0).part = some (s.vf 383).record.part ∧ (s.quadOps 0).opsEnded 0 = false) ∧ (holding (hoop0 .running) near |>.core 0).hoop ≠ none := by decide +kernel
theorem wit_table_configuration : (far false).toMove 255 = [] ∧
    (let s := reserved.modHub (fun h => { h with ranges := [(255, ⟨0x8000000000010000, 0x10000, some 0, none, []⟩)] });
      mapGet s.hub.ranges 255 ≠ none ∧ 0x400 ∈ s.toMove 255 ∧ s.deferred 0x400 13 none = true) := by decide +kernel

end Sys2Proof.Tests
end

section
/-!
PROOFS. The integer instructions of majors 0x04 and 0x05 and SEL (R95 to R100): each is a scalar operation, so its frame is
`scalarOp_writes`; what is left of it is that the value its operation computes is the value its row of the manual states.
-/

namespace Sys2Proof.Machine

/-- `scalarOp_writes` for a result stated in other words than the operation's own. -/
theorem scalarOp_writes_value {i : Instr} {g : BitVec 4} {d : BitVec 6} {s : State} {f : State → W64} {v : W64}
    (he : exec i s = scalarOp i g d f s) (hb : i.wouldBlock = false) (hv : f s = v) (h : Takes i g .scalar s) :
    WritesS i d v s :=
  hv ▸ scalarOp_writes f he hb h

/-! Sums and products under MOD.SAT (R93). -/

theorem clamp64_true (z : Int) : clamp64 true z = sumOf true z := by
  simp only [clamp64, sumOf, if_true]
  by_cases hlo : z < -(2 ^ 63)
  · rw [if_pos hlo, show max (-(2 ^ 63)) (min z (2 ^ 63 - 1)) = (-(2 ^ 63) : Int) by omega]
    decide
  · rw [if_neg hlo]
    by_cases hhi : 2 ^ 63 ≤ z
    · rw [if_pos hhi, show max (-(2 ^ 63)) (min z (2 ^ 63 - 1)) = (2 ^ 63 - 1 : Int) by omega]
      decide
    · rw [if_neg hhi, show max (-(2 ^ 63)) (min z (2 ^ 63 - 1)) = z by omega]

/-- An exact result is clamped under MOD.SAT, else it is its residue modulo 2^64. -/
theorem clamp64_eq_sumOf {z : Int} {w : W64} (sat : Bool) (hw : BitVec.ofInt 64 z = w) :
    clamp64 sat z = if sat then sumOf true z else w := by
  cases sat with
  | false => simpa [clamp64] using hw
  | true => rw [if_pos rfl, clamp64_true]

theorem ofInt_toInt_add (x y : W64) : BitVec.ofInt 64 (x.toInt + y.toInt) = x + y := by
  rw [BitVec.ofInt_add, BitVec.ofInt_toInt, BitVec.ofInt_toInt]

theorem ofInt_toInt_sub (x y : W64) : BitVec.ofInt 64 (x.toInt - y.toInt) = x - y := by
  rw [Int.sub_eq_add_neg, BitVec.ofInt_add, BitVec.ofInt_neg, BitVec.ofInt_toInt, BitVec.ofInt_toInt,
    BitVec.sub_eq_add_neg]

theorem ofInt_toInt_mul (x y : W64) : BitVec.ofInt 64 (x.toInt * y.toInt) = x * y := by
  rw [BitVec.ofInt_mul, BitVec.ofInt_toInt, BitVec.ofInt_toInt]

/-! Division (R96). -/

theorem divS_eq (x y : W64) :
    divS x y = if y = 0 then 0xFFFFFFFFFFFFFFFF else if x = 0x8000000000000000 ∧ y = 0xFFFFFFFFFFFFFFFF then
      0x8000000000000000 else BitVec.ofInt 64 (x.toInt.tdiv y.toInt) := by
  unfold divS
  split
  · rfl
  · split
    · next hov =>
      obtain ⟨rfl, rfl⟩ := hov
      decide
    · rfl

theorem divU_eq (x y : W64) :
    divU x y = if y = 0 then 0xFFFFFFFFFFFFFFFF else BitVec.ofNat 64 (x.toNat / y.toNat) := rfl

theorem remS_eq (x y : W64) :
    remS x y = if y = 0 then x else if x = 0x8000000000000000 ∧ y = 0xFFFFFFFFFFFFFFFF then 0
      else BitVec.ofInt 64 (x.toInt - y.toInt * x.toInt.tdiv y.toInt) := by
  unfold remS
  split
  · rfl
  · split
    · next hov =>
      obtain ⟨rfl, rfl⟩ := hov
      decide
    · rw [Int.tmod_def]

theorem remU_eq (x y : W64) :
    remU x y = if y = 0 then x else BitVec.ofNat 64 (x.toNat - y.toNat * (x.toNat / y.toNat)) := by
  rw [remU, Nat.mod_def]

/-! Rotation (R95). -/

theorem rotateLeft_shamt (x y : W64) :
    x.rotateLeft (shamt y) = (x <<< (y.toNat % 64)) ||| (x >>> (64 - y.toNat % 64)) := by
  have hlt : shamt y < 64 := Nat.mod_lt _ (by decide)
  rw [BitVec.rotateLeft_eq_rotateLeftAux_of_lt hlt]
  rfl

/-- Settles O1: every row of major 0x04 is a scalar operation whose value is the row's. -/
theorem integerArithmeticResults : Obligations.IntegerArithmeticResults := by
  unfold Obligations.IntegerArithmeticResults
  intro g d a b s
  simp only [List.forall_mem_cons, List.not_mem_nil, IsEmpty.forall_iff, implies_true, and_true]
  exact ⟨scalarOp_writes_value rfl rfl (clamp64_eq_sumOf s.sat (ofInt_toInt_add _ _)),
    scalarOp_writes_value rfl rfl (clamp64_eq_sumOf s.sat (ofInt_toInt_sub _ _)),
    scalarOp_writes_value rfl rfl (clamp64_eq_sumOf s.sat (ofInt_toInt_mul _ _)),
    scalarOp_writes_value rfl rfl rfl,
    scalarOp_writes_value rfl rfl rfl,
    scalarOp_writes_value rfl rfl rfl,
    scalarOp_writes_value rfl rfl rfl,
    scalarOp_writes_value rfl rfl rfl,
    scalarOp_writes_value rfl rfl rfl,
    scalarOp_writes_value rfl rfl rfl,
    scalarOp_writes_value rfl rfl rfl,
    scalarOp_writes_value rfl rfl (rotateLeft_shamt _ _),
    scalarOp_writes_value rfl rfl (divS_eq _ _),
    scalarOp_writes_value rfl rfl (divU_eq _ _),
    scalarOp_writes_value rfl rfl (remS_eq _ _),
    scalarOp_writes_value rfl rfl (remU_eq _ _)⟩

/-! Shifts as products (R98, R99). -/

theorem shiftLeft_eq_mul_ofNat (y : W64) (n : Nat) : y <<< n = y * BitVec.ofNat 64 (2 ^ n) := by
  refine BitVec.eq_of_toNat_eq ?_
  rw [BitVec.toNat_shiftLeft, BitVec.toNat_mul, BitVec.toNat_ofNat, Nat.shiftLeft_eq, Nat.mul_mod_mod]

/-! Bit fields (R98). -/

theorem fieldPos_eq (y : W64) : fieldPos y = y.toNat % 64 := by simp [fieldPos, fld, bits]

theorem fieldLen_eq (y : W64) :
    fieldLen y = min (if y.toNat / 256 % 64 = 0 then 64 else y.toNat / 256 % 64) (64 - fieldPos y) := rfl

/-- A field has a bit at least, and none past bit 63. -/
theorem fieldLen_bounds (y : W64) : 0 < fieldLen y ∧ fieldPos y + fieldLen y ≤ 64 := by
  have hp : fieldPos y < 64 := by rw [fieldPos_eq]; omega
  unfold fieldLen
  split <;> omega

/-- Bit i of the field of x is bit pos + i of x. -/
theorem testBit_fieldOf (x y : W64) (i : Nat) :
    (fieldOf x y).testBit i = (decide (i < fieldLen y) && x.getLsbD (fieldPos y + i)) := by
  rw [fieldOf, Nat.testBit_mod_two_pow, Nat.testBit_div_two_pow, Nat.add_comm i]
  rfl

/-- EXT: the field, moved down and cut to its length. -/
theorem ofNat_fieldOf (x y : W64) :
    BitVec.ofNat 64 (fieldOf x y) = (x >>> fieldPos y) &&& BitVec.ofNat 64 (2 ^ fieldLen y - 1) := by
  refine BitVec.eq_of_getLsbD_eq fun i hi => ?_
  rw [BitVec.getLsbD_ofNat, testBit_fieldOf, BitVec.getLsbD_and, BitVec.getLsbD_ushiftRight, BitVec.getLsbD_ofNat,
    Nat.testBit_two_pow_sub_one]
  simp [hi, Bool.and_comm]

/-- EXT.S: the field moved up to bit 63 and, with its sign, down to bit 0. -/
theorem sext64_fieldOf (x y : W64) :
    sext64 (BitVec.ofNat 64 (fieldOf x y)) (fieldLen y) =
      (x <<< (64 - fieldLen y - fieldPos y)).sshiftRight (64 - fieldLen y) := by
  obtain ⟨hpos, hend⟩ := fieldLen_bounds y
  refine BitVec.eq_of_getLsbD_eq fun i hi => ?_
  have hfield (j : Nat) (hj : j < fieldLen y) :
      (BitVec.ofNat (fieldLen y) (BitVec.ofNat 64 (fieldOf x y)).toNat).getLsbD j = x.getLsbD (fieldPos y + j) := by
    rw [BitVec.getLsbD_ofNat, BitVec.toNat_ofNat, Nat.testBit_mod_two_pow, testBit_fieldOf]
    simp [hj, show j < 64 by omega]
  have hshift (j : Nat) (hj : j < fieldLen y) :
      (x <<< (64 - fieldLen y - fieldPos y)).getLsbD (64 - fieldLen y + j) = x.getLsbD (fieldPos y + j) := by
    rw [BitVec.getLsbD_shiftLeft, show 64 - fieldLen y + j - (64 - fieldLen y - fieldPos y) = fieldPos y + j by omega]
    simp only [show 64 - fieldLen y + j < 64 by omega, decide_true, Bool.true_and,
      show ¬ 64 - fieldLen y + j < 64 - fieldLen y - fieldPos y by omega, decide_false, Bool.not_false]
  rw [sext64, ← BitVec.signExtend, BitVec.getLsbD_signExtend, BitVec.getLsbD_sshiftRight]
  by_cases hin : i < fieldLen y
  · rw [if_pos hin, if_pos (show 64 - fieldLen y + i < 64 by omega), hfield i hin, hshift i hin]
    simp [hi]
  · rw [if_neg hin, if_neg (show ¬ 64 - fieldLen y + i < 64 by omega), BitVec.msb_eq_getLsbD_last,
      BitVec.msb_eq_getLsbD_last, hfield _ (by omega), show 64 - 1 = 64 - fieldLen y + (fieldLen y - 1) by omega,
      hshift _ (by omega)]
    simp [hi]

theorem ofNat_mul_two_pow (v n : Nat) : BitVec.ofNat 64 (v * 2 ^ n) = BitVec.ofNat 64 v <<< n := by
  rw [shiftLeft_eq_mul_ofNat, BitVec.ofNat_mul]

/-- INS: the field's bits from the moved source, the others from the old register. -/
theorem insField_eq (old x y : W64) :
    insField old x y = (old &&& ~~~(BitVec.ofNat 64 (2 ^ fieldLen y - 1) <<< fieldPos y)) |||
      ((x <<< fieldPos y) &&& (BitVec.ofNat 64 (2 ^ fieldLen y - 1) <<< fieldPos y)) := by
  simp only [insField, ofNat_mul_two_pow]

/-! Bit counts (R97): by recursion on the bits still to be looked at. -/

/-- CLZ finds n zeros from bit k - 1 down and then, unless there are no bits left, a one. -/
theorem clzGo_spec (x k : Nat) : clzGo x k ≤ k ∧ (∀ j < clzGo x k, x.testBit (k - 1 - j) = false) ∧
    (clzGo x k < k → x.testBit (k - 1 - clzGo x k) = true) := by
  induction k with
  | zero => simp [clzGo]
  | succ k ih =>
    obtain ⟨hle, hzero, hone⟩ := ih
    by_cases hb : x.testBit k = true
    · simp [clzGo, hb]
    · have hgo : clzGo x (k + 1) = 1 + clzGo x k := by simp [clzGo, hb]
      rw [hgo]
      refine ⟨by omega, fun j hj => ?_, fun hlt => ?_⟩
      · cases j with
        | zero => simpa using hb
        | succ j =>
          rw [show k + 1 - 1 - (j + 1) = k - 1 - j by omega]
          exact hzero j (by omega)
      · rw [show k + 1 - 1 - (1 + clzGo x k) = k - 1 - clzGo x k by omega]
        exact hone (by omega)

/-- CTZ finds n zeros from bit i up and then, unless k bits have been looked at, a one. -/
theorem ctzGo_spec (x i k : Nat) : ctzGo x i k ≤ k ∧ (∀ j < ctzGo x i k, x.testBit (i + j) = false) ∧
    (ctzGo x i k < k → x.testBit (i + ctzGo x i k) = true) := by
  induction k generalizing i with
  | zero => simp [ctzGo]
  | succ k ih =>
    obtain ⟨hle, hzero, hone⟩ := ih (i + 1)
    by_cases hb : x.testBit i = true
    · simp [ctzGo, hb]
    · have hgo : ctzGo x i (k + 1) = 1 + ctzGo x (i + 1) k := by simp [ctzGo, hb]
      rw [hgo]
      refine ⟨by omega, fun j hj => ?_, fun hlt => ?_⟩
      · cases j with
        | zero => simpa using hb
        | succ j =>
          rw [show i + (j + 1) = i + 1 + j by omega]
          exact hzero j (by omega)
      · rw [← Nat.add_assoc]
        exact hone (by omega)

theorem fromTo_eq_range' (a n : Nat) : fromTo a n = List.range' a n := by
  induction n generalizing a with
  | zero => rfl
  | succ n ih => rw [fromTo, ih, List.range'_succ]

theorem popc_eq_countP (x : W64) : popc x = (List.range 64).countP (fun j => x.getLsbD j) := by
  rw [popc, fromTo_eq_range', ← List.range_eq_range', List.countP_eq_length_filter]

/-! SEL (R100). -/

/-- SEL's choice: the bit of P[q], inverted when n is 1. -/
theorem select_bit (b : Bool) (n : BitVec 1) : (b != (n == 1)) = if n = 1 then !b else b := by
  by_cases hn : n = 1
  · simp [hn]
  · rw [if_neg hn, beq_false_of_ne hn, Bool.bne_false]

/-- Settles O2: every row is a scalar operation whose value is the row's. -/
theorem selectionFieldAndCountResults : Obligations.SelectionFieldAndCountResults := by
  unfold Obligations.SelectionFieldAndCountResults
  refine ⟨fun g d a b s => ?_, fun g d a s => ⟨?_, ?_, ?_⟩, fun g d a b sc n q s => ⟨?_, ?_⟩⟩
  · simp only [List.forall_mem_cons, List.not_mem_nil, IsEmpty.forall_iff, implies_true, and_true,
      ← BitVec.sle_iff_toInt_le, ← BitVec.ule_iff_toNat_le, ← fieldPos_eq, ← fieldLen_eq]
    exact ⟨scalarOp_writes_value rfl rfl rfl,
      scalarOp_writes_value rfl rfl rfl,
      scalarOp_writes_value rfl rfl rfl,
      scalarOp_writes_value rfl rfl rfl,
      scalarOp_writes_value rfl rfl rfl,
      scalarOp_writes_value rfl rfl (ofNat_fieldOf _ _),
      scalarOp_writes_value rfl rfl (sext64_fieldOf _ _),
      scalarOp_writes_value rfl rfl (insField_eq _ _ _)⟩
  · obtain ⟨hle, hzero, hone⟩ := clzGo_spec (s.getS a).toNat 64
    exact fun h => ⟨_, hle, hzero, hone, scalarOp_writes_value rfl rfl rfl h⟩
  · obtain ⟨hle, hzero, hone⟩ := ctzGo_spec (s.getS a).toNat 0 64
    simp only [Nat.zero_add] at hzero hone
    exact fun h => ⟨_, hle, hzero, hone, scalarOp_writes_value rfl rfl rfl h⟩
  · exact scalarOp_writes_value rfl rfl (congrArg (BitVec.ofNat 64) (popc_eq_countP _))
  · exact scalarOp_writes_value rfl rfl (congrArg (s.getS a + ·) (shiftLeft_eq_mul_ofNat _ _))
  · exact scalarOp_writes_value rfl rfl (by simp only [select_bit])

end Sys2Proof.Machine
end
